-- ==== Sys2Proof/Word.lean ====
section
/-! DEFINITION. The word types of the OFR-440 model and the plainest operations on them: link bytes, sample codes,
sequence numbers, ticks of the 27 MHz reference, channel and cue-line numbers, and fixed-length tables. -/

namespace Sys2Proof

/-- A character of the control link (chapter 10): 8 data bits. -/
abbrev Byte := BitVec 8

/-- A 10-bit sample code, 0 to 1023 (introduction, 1.2). -/
abbrev Sample := BitVec 10

/-- A number that wraps at 2³²: sequence numbers and the fields-accepted counter (R3, R5, R12). -/
abbrev Seq := BitVec 32

/-- A reading of, or a duration in ticks of, the internal 27 MHz reference (introduction, 1.2). -/
abbrev Ticks := Nat

/-- A channel number, 0 to 3. -/
abbrev Chan := Fin 4

/-- A cue line number, CUE0 to CUE7. -/
abbrev CueNo := Fin 8

/-- The vector whose entry `i` is `f i`. -/
def tabulate {α : Type} (n : Nat) (f : Nat → α) : Vector α n :=
  ⟨((List.range n).map f).toArray, by simp⟩

@[simp] theorem getElem_tabulate {α : Type} (n : Nat) (f : Nat → α) (i : Nat) (h : i < n) :
    (tabulate n f)[i] = f i := by
  simp [tabulate]

end Sys2Proof
end

