-- ==== Sys2Proof/Syntax.lean ====
section
/-! DEFINITION. The commands and events of the OFR-440: one constructor of `Instr` per row of spec/opcode_table.json.

A COMMAND row (IDENTIFY to UNKNOWN_KIND) carries the tag and the payload bytes of a command frame (R157, R168).
An EVENT row (FIELD_START to POWER_FAILURE) carries the reading of the 27 MHz reference at which it happens and what
the outside delivers with it. -/

namespace Sys2Proof

/-- The field identity carried in the field label (introduction, 1.6). -/
inductive Identity where
  | f1
  | f2
  deriving DecidableEq, Repr

/-- The two television systems (introduction, 1.2). -/
inductive System where
  | s625
  | s525
  deriving DecidableEq, Repr

/-- The timecode of a field label: hours, minutes, seconds, frames and drop-frame flag, as delivered by the front end
(R2).  The Timecode Reader accepts none of them on trust (R19), so no range stands here. -/
structure Timecode where
  hours : Nat
  minutes : Nat
  seconds : Nat
  frames : Nat
  drop : Bool
  deriving DecidableEq, Repr

/-- The field label delivered at a field start (R2). -/
structure Label where
  identity : Identity
  system : System
  timecode : Option Timecode
  tcValid : Bool
  deriving DecidableEq, Repr

/-- One active line of a field: 720 luma samples and 360 Cb/Cr pairs (introduction, 1.2). -/
structure Line where
  y : Vector Sample 720
  cb : Vector Sample 360
  cr : Vector Sample 360
  deriving DecidableEq, Repr

/-- The field that a field end at a channel's input ends, as the front end delivers it (R14): the field of the latest
field start there, or a field that a later field start has cut off. -/
inductive EndedField where
  | latest (c : Chan)
  | cutOff (c : Chan)
  deriving DecidableEq, Repr

/-- The commands and events of the part, one constructor per row of spec/opcode_table.json.

In an event row `t` is the reading of the 27 MHz reference at which the event happens. -/
inductive Instr where
  -- commands carried by frames of the control link (chapter 10)
  | identify (tag : Byte) (payload : List Byte)
  | deviceReset (tag : Byte) (payload : List Byte)
  | channelConfig (tag : Byte) (payload : List Byte)
  | channelStart (tag : Byte) (payload : List Byte)
  | channelStop (tag : Byte) (payload : List Byte)
  | channelReset (tag : Byte) (payload : List Byte)
  | channelStatus (tag : Byte) (payload : List Byte)
  | channelFreeze (tag : Byte) (payload : List Byte)
  | profileWrite (tag : Byte) (payload : List Byte)
  | profileRead (tag : Byte) (payload : List Byte)
  | profileErase (tag : Byte) (payload : List Byte)
  | planStageClear (tag : Byte) (payload : List Byte)
  | planStageAdd (tag : Byte) (payload : List Byte)
  | planCommit (tag : Byte) (payload : List Byte)
  | planRead (tag : Byte) (payload : List Byte)
  | contextRefresh (tag : Byte) (payload : List Byte)
  | historyFlush (tag : Byte) (payload : List Byte)
  | timingSelect (tag : Byte) (payload : List Byte)
  | droplogRead (tag : Byte) (payload : List Byte)
  | droplogClear (tag : Byte) (payload : List Byte)
  | droplogWatermark (tag : Byte) (payload : List Byte)
  | noticeLevel (tag : Byte) (payload : List Byte)
  | noticeWithdraw (tag : Byte) (payload : List Byte)
  | noticePoll (tag : Byte) (payload : List Byte)
  | cueConfig (tag : Byte) (payload : List Byte)
  | cueRead (tag : Byte) (payload : List Byte)
  | cueSet (tag : Byte) (payload : List Byte)
  | unknownKind (kind : Byte) (tag : Byte) (payload : List Byte)
  -- events
  | fieldStart (t : Ticks) (c : Chan) (label : Label)
  | lineArrival (t : Ticks) (c : Chan) (line : Line)
  | fieldEnd (t : Ticks) (field : EndedField)
  | fieldTimeoutExpiry (t : Ticks) (c : Chan)
  | reconstructionCompletion (t : Ticks) (c : Chan)
  | outputFrameStart (t : Ticks) (c : Chan)
  | houseFrameStart (t : Ticks)
  | houseFamilyTimeout (t : Ticks)
  | referenceLost (t : Ticks) (c : Chan)
  | priorReferenceLost (t : Ticks) (c : Chan)
  | acquisitionWindowEnd (t : Ticks) (c : Chan)
  | receivedByte (t : Ticks) (b : Byte)
  | gapTimerExpiry (t : Ticks)
  | uplinkMessageEnd (t : Ticks)
  | cueLineEdge (t : Ticks) (line : CueNo) (high : Bool)
  | powerUp (t : Ticks)
  | supplyGood (t : Ticks) (strap1 strap0 : Bool)
  | resetPinAssert (t : Ticks)
  | resetPinRelease (t : Ticks) (strap1 strap0 : Bool)
  | startingEnd (t : Ticks)
  | powerFailure (t : Ticks)
  deriving DecidableEq, Repr

end Sys2Proof
end

