-- ==== Sys2Proof/Decode.lean ====
section
/-! DEFINITION. The command that a word of the opcode table spells.  No row of spec/opcode_table.json gives bits (each
row's "fields" is empty and none has "fixed"), so no word spells a command.  The wire layouts of R168, by which a
command frame's payload is read, are in Machine/Operands.lean. -/

namespace Sys2Proof

/-- No row of the table gives bits, so no word spells a command. -/
def decodeTableWord (_nbits _w : Nat) : Option Instr := none

end Sys2Proof
end

