-- ==== Sys2Proof/Config.lean ====
section
/-! DEFINITION. The fixed figures of the part (introduction 1.2, R121, R124, R159, R166, R182), the codes of the
control link (R168), and the two free values of the model: the order in which timers that run out at the same tick are
taken, and the time that the work of a reconstruction takes. -/

namespace Sys2Proof

/-- Active lines of one field (introduction, 1.2). -/
def System.fieldLines : System → Nat
  | .s625 => 288
  | .s525 => 240

/-- Active lines of one frame (introduction, 1.2). -/
def System.frameLines : System → Nat
  | .s625 => 576
  | .s525 => 480

/-- The nominal period in ticks of the 27 MHz reference; one field in gives one output frame (R124). -/
def System.period : System → Ticks
  | .s625 => 540000
  | .s525 => 450450

/-- The tolerance band of R124, both ends included. -/
def System.bandLow : System → Ticks
  | .s625 => 537300
  | .s525 => 448198

/-- The upper end of the tolerance band of R124. -/
def System.bandHigh : System → Ticks
  | .s625 => 542700
  | .s525 => 452702

/-- An interval lies within tolerance when it falls in the band, both ends included (R124). -/
def System.inBand (y : System) (interval : Ticks) : Bool :=
  decide (y.bandLow ≤ interval) && decide (interval ≤ y.bandHigh)

/-- The half-period guard (R124, R126). -/
def System.guard : System → Ticks
  | .s625 => 270000
  | .s525 => 225225

/-- 1.5 periods: the reference loss time of R124 and the length of the field timeout of R15.
DEDUCED (log 3): the field timeout is given as 30 ms and 25.0 ms, and as 1.5 field periods; the period in ticks is R124's. -/
def System.lossTime : System → Ticks
  | .s625 => 810000
  | .s525 => 675675

/-- The acquisition window, 64 periods (R124). -/
def System.window : System → Ticks
  | .s625 => 34560000
  | .s525 => 28828800

/-- The longest work of a reconstruction, 0.8 field period (R90).  DEDUCED (log 3): in ticks of R124's period. -/
def System.workTime : System → Ticks
  | .s625 => 432000
  | .s525 => 360360

/-- F1 carries the top field's even frame lines on 625, the bottom field's odd frame lines on 525 (introduction, 1.7). -/
def topField : System → Identity → Bool
  | .s625, .f1 => true
  | .s625, .f2 => false
  | .s525, .f1 => false
  | .s525, .f2 => true

namespace Config

/-- House frame starts this far apart leave no interval, and the family NONE (R125). -/
def houseTimeout : Ticks := 810000

/-- The gap timer of the receiver, 50 ms (R159). -/
def gapTime : Ticks := 1350000

/-- The STARTING period, 40 ms (R182), in ticks of the 27 MHz reference. -/
def startingTime : Ticks := 1080000

/-- The 27 MHz reference in ticks a second. -/
def referenceHz : Nat := 27000000

/-- The history ring holds at most five fields (section 1.2, R3, R4). -/
def ringDepth : Nat := 5

/-- The signature history holds at most ten signatures (R73). -/
def signatureDepth : Nat := 10

/-- The output frame queue holds at most two unread frames (R133). -/
def queueDepth : Nat := 2

/-- A plan holds at most 64 entries (R26, R27). -/
def planDepth : Nat := 64

/-- The dropout log holds at most 256 records (R62). -/
def logDepth : Nat := 256

/-- At most eight records are opened in one field (R59). -/
def recordsPerField : Nat := 8

/-- The command FIFO holds up to four frames (R161). -/
def fifoDepth : Nat := 4

/-- The reply queue holds at most eight replies (R164). -/
def replyDepth : Nat := 8

/-- The operations table has four slots (R152). -/
def operationSlots : Nat := 4

/-- The repeat and drop counts saturate here (R133, R139). -/
def countMax : Nat := 65535

/-- A stored hold limit is at most this (R141, R142). -/
def holdMax : Nat := 250

/-- The revision code (R166). -/
def revision : Byte := 1

/-- FREE VALUE (log 4): where several timers run out at the same tick the spec lets either be taken first.  The timer
of lowest rank is taken first; nothing constrains the ranks. -/
opaque timerRank : (tick timer : Nat) → Nat

/-- FREE VALUE (log 22): the ticks that the work of a reconstruction takes, which R90 bounds and does not state, for a
channel and the reading at which the work started.  `Device.due` keeps it within R90's bound. -/
opaque reconWork : (channel start : Nat) → Nat

end Config

/-! The command codes of R168. -/
namespace Kind

def identify : Byte := 0x01
def deviceReset : Byte := 0x02
def channelConfig : Byte := 0x10
def channelStart : Byte := 0x11
def channelStop : Byte := 0x12
def channelReset : Byte := 0x13
def channelStatus : Byte := 0x14
def channelFreeze : Byte := 0x15
def profileWrite : Byte := 0x20
def profileRead : Byte := 0x21
def profileErase : Byte := 0x22
def planStageClear : Byte := 0x30
def planStageAdd : Byte := 0x31
def planCommit : Byte := 0x32
def planRead : Byte := 0x33
def contextRefresh : Byte := 0x40
def historyFlush : Byte := 0x41
def timingSelect : Byte := 0x42
def droplogRead : Byte := 0x50
def droplogClear : Byte := 0x51
def droplogWatermark : Byte := 0x52
def noticeLevel : Byte := 0x60
def noticeWithdraw : Byte := 0x61
def noticePoll : Byte := 0x62
def cueConfig : Byte := 0x70
def cueRead : Byte := 0x71
def cueSet : Byte := 0x72
def reply : Byte := 0xC0
def notice : Byte := 0xC1
def hello : Byte := 0xC2

/-- The assigned command codes, in the order of R168's table. -/
def assigned : List Byte :=
  [identify, deviceReset, channelConfig, channelStart, channelStop, channelReset, channelStatus, channelFreeze,
   profileWrite, profileRead, profileErase, planStageClear, planStageAdd, planCommit, planRead, contextRefresh,
   historyFlush, timingSelect, droplogRead, droplogClear, droplogWatermark, noticeLevel, noticeWithdraw, noticePoll,
   cueConfig, cueRead, cueSet]

end Kind

end Sys2Proof
end

