-- ==== Sys2Proof/Machine/State.lean ====
section
/-! DEFINITION. The state of the OFR-440 as plain data, its reset value, and the reasons a step can stop.

`State` is the queue of commands that wait and the `Device`: every piece of state the spec gives the part.  A block of
a channel is a structure of its own, so that a rule's reset table reads as one record. -/

namespace Sys2Proof.Machine

/-! ## Names the control link carries (R168's enumerations, in their order) -/

/-- Channel state (R141). -/
inductive ChanState where
  | off
  | ready
  | running
  | holding
  | stopping
  deriving DecidableEq, Repr

/-- Timecode bases (R20). -/
inductive Base where
  | b625
  | b525ndf
  | b525df
  deriving DecidableEq, Repr

/-- Cadence modes of a profile (R38). -/
inductive CadenceMode where
  | auto
  | forceVideo
  | force22
  | force32
  deriving DecidableEq, Repr

/-- Coefficient sets of the scaler (R113). -/
inductive Filter where
  | cubic
  | linear
  deriving DecidableEq, Repr

/-- Concealment source of a field (R53). -/
inductive ConcealSource where
  | previousFrame
  | lineAbove
  | none
  deriving DecidableEq, Repr

/-- Cadence state, with its phase where it has one (section 5.3, R74). -/
inductive Cadence where
  | seek
  | video
  | film22 (phase : Fin 2)
  | film32 (phase : Fin 5)
  | forcedVideo
  | forced22 (phase : Fin 2)
  | forced32 (phase : Fin 5)
  deriving DecidableEq, Repr

/-- Input condition (R18). -/
inductive InputCond where
  | normal
  | absent
  | wrongStandard
  deriving DecidableEq, Repr

/-- Reasons of the INPUT notice (R16, R17, R5). -/
inductive InputReason where
  | absent
  | wrongStandard
  | restored
  deriving DecidableEq, Repr

/-- Output timing sources (section 8.1). -/
inductive TimingSource where
  | internal
  | house
  | input
  deriving DecidableEq, Repr

/-- Names of the timing states (R124). -/
inductive TimingName where
  | free
  | acquire
  | locked
  | holdover
  deriving DecidableEq, Repr

/-- Reasons of the TIMING notice (R131). -/
inductive TimingReason where
  | command
  | reacquire
  | lock
  | absent
  | wrongFamily
  | unstable
  | referenceLost
  | config
  deriving DecidableEq, Repr

/-- Reasons of the CADENCE notice (R87). -/
inductive CadenceReason where
  | lock
  | break_
  | unusable
  | edit
  | flush
  | forced
  | start
  | loss
  deriving DecidableEq, Repr

/-- Reasons of an edit, in the order of R7's table. -/
inductive EditReason where
  | fieldDiscarded
  | tcJump
  | parityRepeat
  | planMark
  | cueMark
  deriving DecidableEq, Repr

/-- Kinds of slip (R134, R135). -/
inductive SlipKind where
  | repeat_
  | drop
  deriving DecidableEq, Repr

/-- Faults of the receiver (R158 to R161). -/
inductive LinkFault where
  | gap
  | length
  | checksum
  | noise
  | overrun
  deriving DecidableEq, Repr

/-- Status codes of a reply (R168). -/
inductive Status where
  | ok
  | unknown
  | length
  | range
  | state
  | busy
  | order
  | full
  | tagInUse
  | needsInput
  | aborted
  | failed
  deriving DecidableEq, Repr

/-! ## Profiles, contexts and plans (chapters 2 and 3) -/

/-- A colour: the border Y, Cb and Cr (R38). -/
structure Colour where
  y : Sample
  cb : Sample
  cr : Sample
  deriving DecidableEq, Repr

/-- A treatment profile (R38). -/
structure Profile where
  mode : CadenceMode
  phaseOffset : Nat
  motionLow : Nat
  motionHigh : Nat
  repeatThreshold : Nat
  combThreshold : Nat
  filter : Filter
  cropX0 : Nat
  cropWidth : Nat
  cropY0 : Nat
  cropHeight : Nat
  conceal : Bool
  dropRun : Nat
  dropLevel : Nat
  border : Colour
  deriving DecidableEq, Repr

/-- The built-in profile, place 0 of the profile table (R37, R38). -/
def profile0 : Profile where
  mode := .auto
  phaseOffset := 0
  motionLow := 12
  motionHigh := 60
  repeatThreshold := 6
  combThreshold := 10
  filter := .cubic
  cropX0 := 0
  cropWidth := 720
  cropY0 := 0
  cropHeight := 576
  conceal := true
  dropRun := 24
  dropLevel := 40
  border := ⟨64, 512, 512⟩

/-- A channel's working copy of a profile, with its two ids (R42). -/
structure Context where
  requested : Nat
  source : Nat
  params : Profile
  deriving DecidableEq, Repr

/-- A plan entry: what it carries and its two counts (R26). -/
structure PlanEntry where
  startTc : Timecode
  endTc : Timecode
  profile : Nat
  edit : Bool
  startCount : Nat
  endCount : Nat
  deriving DecidableEq, Repr

/-- A plan: its base, none when it is empty, and its entries (section 2.5). -/
structure Plan where
  base : Option Base
  entries : List PlanEntry
  deriving DecidableEq, Repr

/-- The empty plan. -/
def Plan.empty : Plan := ⟨none, []⟩

/-- The plan selection: one entry's counts, index, profile id and edit flag (R33). -/
structure Selection where
  startCount : Nat
  endCount : Nat
  index : Nat
  profile : Nat
  edit : Bool
  deriving DecidableEq, Repr

/-- A field count with its base (R20, R22). -/
structure Count where
  base : Base
  count : Nat
  deriving DecidableEq, Repr

/-- A forced phase together with its period (R24, R25). -/
inductive ForcedPhase where
  | of22 (phase : Fin 2)
  | of32 (phase : Fin 5)
  deriving DecidableEq, Repr

/-! ## Fields (chapter 1) and dropouts (chapter 4) -/

/-- A rectangle of the frame (R98, R101). -/
structure Rect where
  x0 : Nat
  y0 : Nat
  w : Nat
  h : Nat
  deriving DecidableEq, Repr

/-- A window-stale rectangle with its remaining count (R3, R101). -/
structure WindowMark where
  rect : Rect
  remaining : Nat
  deriving DecidableEq, Repr

/-- The history slot of one field (R3). -/
structure Slot where
  seq : Seq
  identity : Identity
  fieldCount : Option Nat
  stale : Bool
  window : Option WindowMark
  malformed : Bool
  forcedPhase : Option ForcedPhase
  context : Context
  lines : List Line
  deriving DecidableEq, Repr

/-- The columns of a run's first and last samples (R52). -/
structure Span where
  first : Nat
  last : Nat
  deriving DecidableEq, Repr

/-- A dropout record (R56). -/
structure DropRecord where
  chan : Chan
  seq : Seq
  fieldCount : Option Nat
  identity : Identity
  firstLine : Nat
  lineCount : Nat
  span : Span
  source : ConcealSource
  deriving DecidableEq, Repr

/-- The field in intake (R1, R10) and the dropout state that lives with it (R53, R55, R57, R59, R61). -/
structure InField where
  lineCount : Nat
  source : ConcealSource
  openRecords : List DropRecord
  opened : Nat
  burst : Bool
  pendingLine0 : List Span
  concealed : Bool
  deriving DecidableEq, Repr

/-- The Field Intake of a channel (R18).  `field` is `none` in IDLE; `timeout` is the reading of the reference at which
the armed field timeout runs out, `none` when disarmed (R15). -/
structure Intake where
  field : Option InField
  ring : List Slot
  nextSeq : Seq
  accepted : Seq
  discard : Bool
  prevIdentity : Option Identity
  editMark : Bool
  timeout : Option Ticks
  input : InputCond
  deriving DecidableEq, Repr

/-- The Timecode Reader and Plan Table of a channel (R36). -/
structure Reader where
  committed : Plan
  staged : Plan
  selection : Option Selection
  lastCount : Option Count
  phaseMemory : Option ForcedPhase
  deriving DecidableEq, Repr

/-! ## Cadence tracking (chapter 5) -/

/-- A field's signature (R68). -/
structure Signature where
  seq : Seq
  repeats : Bool
  pairs : Bool
  usable : Bool
  deriving DecidableEq, Repr

/-- The Cadence Tracker of a channel (R74). -/
structure Tracker where
  cadence : Cadence
  history : List Signature
  unusable : Nat
  deriving DecidableEq, Repr

/-! ## Reconstruction (chapter 6) and output frames (chapter 7) -/

/-- The view of a reconstruction (R89).  The cadence state is `none` in the rebuild at a loss (R107). -/
structure View where
  prev2 : Option Slot
  prev1 : Option Slot
  field : Slot
  next : Option Slot
  cadence : Option Cadence
  deriving DecidableEq, Repr

/-- The Field Reconstructor of a channel (R108): the reconstructions in flight and waiting, in the order they began,
the first at work since `workStart`; the last-begun mark; the window memory (R101). -/
structure Reconstructor where
  jobs : List View
  workStart : Ticks
  lastBegun : Option Seq
  windowMemory : Option WindowMark
  deriving DecidableEq, Repr

/-- One row of the output raster: 1920 luma samples and 960 chroma pairs (R118). -/
structure OutRow where
  y : Vector Sample 1920
  cb : Vector Sample 960
  cr : Vector Sample 960
  deriving DecidableEq, Repr

/-- The output raster, rows 0 to 1079 (R118). -/
abbrev Raster := Vector OutRow 1080

/-- A picture frame (R119). -/
structure Picture where
  seq : Seq
  raster : Raster
  deriving DecidableEq, Repr

/-- An output frame: a picture, a border slate in its colour, or black (R119 to R121). -/
inductive OutFrame where
  | picture (p : Picture)
  | slate (colour : Colour)
  | black
  deriving DecidableEq, Repr

/-- The Frame Synchroniser of a channel (R133), less the cue freeze level, which the cue lines give (R178). -/
structure Synchroniser where
  onAir : OutFrame
  queue : List Picture
  seen : Bool
  awaited : Bool
  repeats : Nat
  drops : Nat
  hold : Nat
  freeze : Bool
  deriving DecidableEq, Repr

/-! ## Output timing (chapter 8) -/

/-- The two sources that lock is acquired to. -/
inductive RefSource where
  | house
  | input
  deriving DecidableEq, Repr

/-- The timing states other than ACQUIRE, each with the source it goes with (R124): FREE is INTERNAL, LOCKED and
HOLDOVER are HOUSE or INPUT. -/
inductive Settled where
  | free
  | locked (source : RefSource)
  | holdover (source : RefSource)
  deriving DecidableEq, Repr

/-- The acquisition record (R124).  The elapsed time is counted from `began`. -/
structure Acquisition where
  commanded : Bool
  target : RefSource
  prior : Settled
  priorKept : Option Ticks
  run : Nat
  began : Ticks
  seen : Bool
  deriving DecidableEq, Repr

/-- The state of an Output Timing Generator (R124). -/
inductive TimingState where
  | settled (s : Settled)
  | acquire (a : Acquisition)
  deriving DecidableEq, Repr

/-- The Output Timing Generator of a channel (R124): its state, the kept period, the reading of the reference at the
last output frame start (R126) and at the last field start that took a field in (R124, R128). -/
structure Generator where
  state : TimingState
  kept : Option Ticks
  lastOut : Ticks
  lastInput : Option Ticks
  deriving DecidableEq, Repr

/-! ## Channels (chapter 9) -/

/-- A channel's configuration (R141). -/
structure Settings where
  system : System
  defaultProfile : Nat
  holdLimit : Nat
  timecodeUse : Bool
  deriving DecidableEq, Repr

/-- One channel (R141 and the blocks of section 1.3). -/
structure Channel where
  state : ChanState
  settings : Settings
  intake : Intake
  reader : Reader
  context : Option Context
  dropState : Bool
  tracker : Tracker
  recon : Reconstructor
  sync : Synchroniser
  gen : Generator
  deriving DecidableEq, Repr

/-! ## Operations in flight (section 9.7) -/

/-- The scope of a context refresh as it is performed (R48). -/
inductive RefreshScope where
  | channel
  | profile
  | all
  deriving DecidableEq, Repr

/-- The scope of a history flush as it is asked (R102). -/
inductive FlushScope where
  | window (rect : Rect)
  | channel
  | all
  deriving DecidableEq, Repr

/-- The scope of a history flush as it is performed on one channel (R104). -/
inductive FlushDone where
  | window
  | channel
  deriving DecidableEq, Repr

/-- The kinds of operation, with what the work of each needs (R152). -/
inductive OpKind where
  | commit
  | refresh (performed : RefreshScope)
  | flush (asked : FlushScope)
  | timing
  | stop
  deriving DecidableEq, Repr

/-- A done flag (R152). -/
inductive DoneFlag where
  | clear
  | done
  | aborted
  deriving DecidableEq, Repr

/-- One target of an operation: its channel, done flag and, for a flush, the scope performed (R152). -/
structure Target where
  chan : Chan
  flag : DoneFlag
  performed : Option FlushDone
  deriving DecidableEq, Repr

/-- The result detail that an operation as a whole holds (R152). -/
inductive OpResult where
  | none
  | committed (entries : Nat)
  | timing (reason : TimingReason) (source : TimingSource) (state : TimingName)
  deriving DecidableEq, Repr

/-- An operation in flight (R152). -/
structure Operation where
  tag : Byte
  kind : OpKind
  targets : List Target
  result : OpResult
  deriving DecidableEq, Repr

/-! ## The control link (chapter 10) -/

/-- The receiver's state, with the bytes of the frame it is assembling (R158). -/
inductive Receiver where
  | hunt
  | length
  | body (len : Nat) (held : List Byte)
  | check (len : Nat) (held : List Byte)
  deriving DecidableEq, Repr

/-- A good frame in the command FIFO (R161). -/
structure Command where
  kind : Byte
  tag : Byte
  payload : List Byte
  deriving DecidableEq, Repr

/-- A reply: the command's tag, the status, the kind answered and the result fields (R163). -/
structure Reply where
  tag : Byte
  status : Status
  kind : Byte
  results : List Byte
  deriving DecidableEq, Repr

/-- The uplink: IDLE, or SENDING a message whose bytes began to go at `since` (R165). -/
inductive Uplink where
  | idle
  | sending (frame : List Byte) (since : Ticks)
  deriving DecidableEq, Repr

/-! ## Notices (chapter 11) -/

/-- The notice sources (R169). -/
inductive Source where
  | linkFault
  | logOverflow
  | input (c : Chan)
  | timing (c : Chan)
  | slip (c : Chan)
  | edit (c : Chan)
  | cadence (c : Chan)
  | burst (c : Chan)
  | logWatermark
  | cueEdge
  deriving DecidableEq, Repr

/-- The detail of a notice (R169). -/
inductive Detail where
  | linkFault (reason : LinkFault)
  | logOverflow
  | input (state : ChanState) (reason : InputReason)
  | timing (source : TimingSource) (state : TimingName) (reason : TimingReason)
  | slip (kind : SlipKind) (repeats drops : Nat)
  | edit (reason : EditReason) (count : Option Nat)
  | cadence (state : Cadence) (reason : CadenceReason)
  | burst (seq : Seq)
  | logWatermark (count : Nat)
  | cueEdge (mask : Byte) (last : CueNo)
  deriving DecidableEq, Repr

/-- A source record (R169).  The raised flag and the detail are one: a detail is present exactly while the flag is
set. -/
structure NoticeRecord where
  level : Fin 8
  raised : Option Detail
  superseded : Bool
  deriving DecidableEq, Repr

/-! ## Cue lines and start-up (chapter 12) -/

/-- The function of a cue line with its parameter (R176). -/
inductive CueFunction where
  | general
  | editMark (c : Chan)
  | freeze (c : Chan)
  | tallyDropout (c : Chan)
  | tallyFilm (c : Chan)
  | attention (threshold : Fin 8)
  deriving DecidableEq, Repr

/-- The polarity of a cue line: RISING or HIGH, FALLING or LOW (R176). -/
inductive Polarity where
  | high
  | low
  deriving DecidableEq, Repr

/-- A cue line record (R176).  `drivesLow` is the general output level: driven low, or not driven. -/
structure CueRecord where
  function : CueFunction
  inputOn : Bool
  polarity : Polarity
  drivesLow : Bool
  deriving DecidableEq, Repr

/-- The family of the house reference (R125). -/
inductive HouseFamily where
  | none
  | f50
  | f5994
  deriving DecidableEq, Repr

/-- Reset causes (R181). -/
inductive ResetCause where
  | power
  | pin
  | command
  deriving DecidableEq, Repr

/-- Where the device stands in its start-up (R181, R182): held in reset, STARTING since a reading of the reference, or
past the STARTING period. -/
inductive Phase where
  | held
  | starting (since : Ticks)
  | operating
  deriving DecidableEq, Repr

/-! ## The device and the state -/

/-- Everything the spec gives the part, and the levels that the outside puts on its pins.

`now` is the reading of the 27 MHz reference.  `supplyGood`, `pinAsserted`, `strap1`, `strap0` and `cueOutside` are
levels at pins: the supply, the reset pin, the LINK_RATE straps, and for each cue line whether the outside leaves it
high. -/
structure Device where
  now : Ticks
  -- start-up control
  phase : Phase
  supplyGood : Bool
  pinAsserted : Bool
  strap1 : Bool
  strap0 : Bool
  lineRate : Nat
  cause : ResetCause
  -- channels and shared tables
  chans : Vector Channel 4
  profiles : Vector (Option Profile) 31
  dropLog : List DropRecord
  overflow : Bool
  watermark : Nat
  ops : List Operation
  -- control link
  receiver : Receiver
  gapSince : Ticks
  noiseRun : Bool
  fifo : List Command
  replies : List Reply
  uplink : Uplink
  -- notices
  notices : Vector NoticeRecord 28
  -- cue lines
  cues : Vector CueRecord 8
  cueOutside : Vector Bool 8
  -- house reference input
  houseFamily : HouseFamily
  lastHouse : Option Ticks
  deriving DecidableEq, Repr

/-- The state of the model: the commands and events that wait, oldest first, and the part. -/
structure State where
  pending : List Instr
  dev : Device
  deriving DecidableEq, Repr

/-! ## Reasons to stop -/

/-- Why the machine stops with a fault.  There is no reason: the spec's design aim is that the output does not stop,
and it gives every command and event an effect in every state.  Safe: no run ends here. -/
inductive Fault : Type where
  deriving DecidableEq, Repr

/-- Why a step refuses a command. -/
inductive Refusal where
  /-- Raised by an arm of `exec` whose row has no meaning yet.  Safe: the model stops.  No arm raises it now. -/
  | notModelled (mnemonic : String)
  deriving DecidableEq, Repr

/-! ## Reset values -/

/-- R18, the device-reset column. -/
def Intake.reset : Intake where
  field := none
  ring := []
  nextSeq := 0
  accepted := 0
  discard := false
  prevIdentity := none
  editMark := false
  timeout := none
  input := .normal

/-- R36, the device-reset column. -/
def Reader.reset : Reader where
  committed := .empty
  staged := .empty
  selection := none
  lastCount := none
  phaseMemory := none

/-- R88, the device-reset column. -/
def Tracker.reset : Tracker where
  cadence := .seek
  history := []
  unusable := 0

/-- R108, the device-reset column.  `workStart` says nothing while no reconstruction is in flight. -/
def Reconstructor.reset : Reconstructor where
  jobs := []
  workStart := 0
  lastBegun := none
  windowMemory := none

/-- R140, the device-reset column. -/
def Synchroniser.reset : Synchroniser where
  onAir := .black
  queue := []
  seen := false
  awaited := false
  repeats := 0
  drops := 0
  hold := 0
  freeze := false

/-- R132, the device-reset column; output frame starts are counted from `lastOut` (R126). -/
def Generator.reset (lastOut : Ticks) : Generator where
  state := .settled .free
  kept := none
  lastOut := lastOut
  lastInput := none

/-- R141: the configuration after a device reset or CHANNEL_RESET. -/
def Settings.reset : Settings where
  system := .s625
  defaultProfile := 0
  holdLimit := 50
  timecodeUse := true

/-- A channel after a device reset or CHANNEL_RESET (R148); its output frame starts are counted from `lastOut`. -/
def Channel.reset (lastOut : Ticks) : Channel where
  state := .off
  settings := .reset
  intake := .reset
  reader := .reset
  context := none
  dropState := false
  tracker := .reset
  recon := .reset
  sync := .reset
  gen := .reset lastOut

/-- A source record with nothing raised, at a level (R175). -/
def NoticeRecord.lowered (level : Fin 8) : NoticeRecord where
  level := level
  raised := none
  superseded := false

/-- The records of the 28 sources at their default levels, in the order of their numbers (R169, R175). -/
def noticesReset : Vector NoticeRecord 28 :=
  #v[.lowered 6, .lowered 5,
     .lowered 7, .lowered 7, .lowered 7, .lowered 7,
     .lowered 6, .lowered 6, .lowered 6, .lowered 6,
     .lowered 4, .lowered 4, .lowered 4, .lowered 4,
     .lowered 3, .lowered 3, .lowered 3, .lowered 3,
     .lowered 2, .lowered 2, .lowered 2, .lowered 2,
     .lowered 1, .lowered 1, .lowered 1, .lowered 1,
     .lowered 3, .lowered 0]

/-- A cue line record after a device reset (R176). -/
def CueRecord.reset : CueRecord where
  function := .general
  inputOn := false
  polarity := .high
  drivesLow := false

/-- The part right after a power-up reset has ended, with the STARTING period beginning at reading 0 of the reference
(R181, R182 and the table of section 12.5).  DESIGN CHOICE (log 2): the strap pins stand low, so the line rate is
115,200 baud, and the outside leaves every cue line high. -/
def Device.reset : Device where
  now := 0
  phase := .starting 0
  supplyGood := true
  pinAsserted := false
  strap1 := false
  strap0 := false
  lineRate := 115200
  cause := .power
  chans := .replicate 4 (Channel.reset 0)
  profiles := .replicate 31 none
  dropLog := []
  overflow := false
  watermark := 64
  ops := []
  receiver := .hunt
  gapSince := 0
  noiseRun := false
  fifo := []
  replies := []
  uplink := .idle
  notices := noticesReset
  cues := .replicate 8 .reset
  cueOutside := .replicate 8 true
  houseFamily := .none
  lastHouse := none

/-- The machine right after reset: nothing waits, and the part has begun its STARTING period. -/
def State.reset : State where
  pending := []
  dev := .reset

end Sys2Proof.Machine
end

