-- ==== Sys2Proof/Machine/Wire.lean ====
section
/-! DEFINITION. How the part lays out what it sends (R157, R168): numbers, enumerations, profiles, plan entries, dropout
records, notice entries, and whole frames. -/

namespace Sys2Proof.Machine

/-! ## Numbers -/

/-- A one-byte number. -/
def byte1 (n : Nat) : List Byte := [BitVec.ofNat 8 n]

/-- A two-byte number, most significant byte first (R157). -/
def byte2 (n : Nat) : List Byte := [BitVec.ofNat 8 (n / 256), BitVec.ofNat 8 n]

/-- A four-byte number, most significant byte first (R157). -/
def byte4 (n : Nat) : List Byte :=
  [BitVec.ofNat 8 (n / 16777216), BitVec.ofNat 8 (n / 65536), BitVec.ofNat 8 (n / 256), BitVec.ofNat 8 n]

/-- On and off (R168). -/
def onOff (b : Bool) : Byte := if b then 1 else 0

/-- A set of channels: one byte, bit c for channel c (R168). -/
def chanSet (cs : List Chan) : Byte :=
  BitVec.ofNat 8 ((if cs.contains 0 then 1 else 0) + (if cs.contains 1 then 2 else 0) +
    (if cs.contains 2 then 4 else 0) + (if cs.contains 3 then 8 else 0))

/-- A mask of the eight cue lines, bit n for CUEn (R180). -/
def cueMask (bit : CueNo → Bool) : Byte :=
  BitVec.ofNat 8 ((if bit 0 then 1 else 0) + (if bit 1 then 2 else 0) + (if bit 2 then 4 else 0) +
    (if bit 3 then 8 else 0) + (if bit 4 then 16 else 0) + (if bit 5 then 32 else 0) +
    (if bit 6 then 64 else 0) + (if bit 7 then 128 else 0))

/-! ## Enumerations, numbered from 0 in the order of R168's table -/

def ChanState.code : ChanState → Byte
  | .off => 0
  | .ready => 1
  | .running => 2
  | .holding => 3
  | .stopping => 4

def systemCode : System → Byte
  | .s625 => 0
  | .s525 => 1

def baseCode : Option Base → Byte
  | none => 0
  | some .b625 => 1
  | some .b525ndf => 2
  | some .b525df => 3

def CadenceMode.code : CadenceMode → Byte
  | .auto => 0
  | .forceVideo => 1
  | .force22 => 2
  | .force32 => 3

def Cadence.code : Cadence → Byte
  | .seek => 0
  | .video => 1
  | .film22 _ => 2
  | .film32 _ => 3
  | .forcedVideo => 4
  | .forced22 _ => 5
  | .forced32 _ => 6

/-- The phase of a cadence state; a phase that does not exist is sent as 0xFF (R168). -/
def Cadence.phaseCode : Cadence → Byte
  | .film22 p => BitVec.ofNat 8 p.val
  | .film32 p => BitVec.ofNat 8 p.val
  | .forced22 p => BitVec.ofNat 8 p.val
  | .forced32 p => BitVec.ofNat 8 p.val
  | .seek => 0xFF
  | .video => 0xFF
  | .forcedVideo => 0xFF

def Filter.code : Filter → Byte
  | .cubic => 0
  | .linear => 1

def ConcealSource.code : ConcealSource → Byte
  | .previousFrame => 0
  | .lineAbove => 1
  | .none => 2

def TimingSource.code : TimingSource → Byte
  | .internal => 0
  | .house => 1
  | .input => 2

def TimingName.code : TimingName → Byte
  | .free => 0
  | .acquire => 1
  | .locked => 2
  | .holdover => 3

def InputCond.code : InputCond → Byte
  | .normal => 0
  | .absent => 1
  | .wrongStandard => 2

def InputReason.code : InputReason → Byte
  | .absent => 1
  | .wrongStandard => 2
  | .restored => 3

def TimingReason.code : TimingReason → Byte
  | .command => 0
  | .reacquire => 1
  | .lock => 2
  | .absent => 3
  | .wrongFamily => 4
  | .unstable => 5
  | .referenceLost => 6
  | .config => 7

def CadenceReason.code : CadenceReason → Byte
  | .lock => 0
  | .break_ => 1
  | .unusable => 2
  | .edit => 3
  | .flush => 4
  | .forced => 5
  | .start => 6
  | .loss => 7

def EditReason.code : EditReason → Byte
  | .fieldDiscarded => 0
  | .tcJump => 1
  | .parityRepeat => 2
  | .planMark => 3
  | .cueMark => 4

def SlipKind.code : SlipKind → Byte
  | .repeat_ => 0
  | .drop => 1

def LinkFault.code : LinkFault → Byte
  | .gap => 0
  | .length => 1
  | .checksum => 2
  | .noise => 3
  | .overrun => 4

def Status.code : Status → Byte
  | .ok => 0x00
  | .unknown => 0x01
  | .length => 0x02
  | .range => 0x03
  | .state => 0x04
  | .busy => 0x05
  | .order => 0x06
  | .full => 0x07
  | .tagInUse => 0x08
  | .needsInput => 0x09
  | .aborted => 0x0A
  | .failed => 0x0B

/-- The scope enumeration: CHANNEL, PROFILE, ALL, WINDOW. -/
def RefreshScope.code : RefreshScope → Byte
  | .channel => 0
  | .profile => 1
  | .all => 2

def FlushDone.code : FlushDone → Byte
  | .channel => 0
  | .window => 3

def ResetCause.code : ResetCause → Byte
  | .power => 0
  | .pin => 1
  | .command => 2

/-! ## Records -/

/-- A profile, 26 bytes (R168). -/
def Profile.bytes (p : Profile) : List Byte :=
  [p.mode.code] ++ byte1 p.phaseOffset ++ byte2 p.motionLow ++ byte2 p.motionHigh ++ byte1 p.repeatThreshold ++
  byte1 p.combThreshold ++ [p.filter.code] ++ byte2 p.cropX0 ++ byte2 p.cropWidth ++ byte2 p.cropY0 ++
  byte2 p.cropHeight ++ [onOff p.conceal] ++ byte1 p.dropRun ++ byte1 p.dropLevel ++
  byte2 p.border.y.toNat ++ byte2 p.border.cb.toNat ++ byte2 p.border.cr.toNat

/-- The four bytes of a timecode: hours, minutes, seconds, frames (R168). -/
def timecodeBytes (tc : Timecode) : List Byte :=
  byte1 tc.hours ++ byte1 tc.minutes ++ byte1 tc.seconds ++ byte1 tc.frames

/-- A plan entry, 10 bytes (R168). -/
def PlanEntry.bytes (e : PlanEntry) : List Byte :=
  timecodeBytes e.startTc ++ timecodeBytes e.endTc ++
  byte1 ((if e.startTc.drop then 1 else 0) + (if e.edit then 2 else 0)) ++ byte1 e.profile

/-- A dropout record, 18 bytes (R168). -/
def DropRecord.bytes (r : DropRecord) : List Byte :=
  byte1 (r.chan.val + (if r.identity = .f2 then 4 else 0) + (if r.fieldCount.isSome then 8 else 0)) ++
  [r.source.code] ++ byte4 r.seq.toNat ++ byte4 (r.fieldCount.getD 0) ++ byte2 r.firstLine ++ byte2 r.lineCount ++
  byte2 r.span.first ++ byte2 r.span.last

/-- The number of a notice source, 1 to 28 (R169). -/
def Source.number : Source → Nat
  | .linkFault => 1
  | .logOverflow => 2
  | .input c => 3 + c.val
  | .timing c => 7 + c.val
  | .slip c => 11 + c.val
  | .edit c => 15 + c.val
  | .cadence c => 19 + c.val
  | .burst c => 23 + c.val
  | .logWatermark => 27
  | .cueEdge => 28

/-- Detail bytes 2 to 7 of a notice entry, unused bytes zero (R168). -/
def Detail.bytes : Detail → List Byte
  | .linkFault r => [r.code, 0, 0, 0, 0, 0]
  | .logOverflow => [0, 0, 0, 0, 0, 0]
  | .input s r => [s.code, r.code, 0, 0, 0, 0]
  | .timing src st r => [src.code, st.code, r.code, 0, 0, 0]
  | .slip k r d => [k.code] ++ byte2 r ++ byte2 d ++ [0]
  | .edit r n => [r.code, onOff n.isSome] ++ byte4 (n.getD 0)
  | .cadence s r => [s.code, s.phaseCode, r.code, 0, 0, 0]
  | .burst n => byte4 n.toNat ++ [0, 0]
  | .logWatermark n => byte2 n ++ [0, 0, 0, 0]
  | .cueEdge mask last => [mask, BitVec.ofNat 8 last.val, 0, 0, 0, 0]

/-- A notice entry, 8 bytes: the source number, the level with the superseded flag in bit 7, the detail (R168). -/
def noticeEntry (number : Nat) (level : Fin 8) (superseded : Bool) (detail : Detail) : List Byte :=
  byte1 number ++ byte1 (level.val + if superseded then 128 else 0) ++ detail.bytes

/-! ## Frames -/

/-- The sum of bytes modulo 256. -/
def byteSum (bs : List Byte) : Byte := bs.foldl (· + ·) 0

/-- A frame: SYNC, LEN, KIND, TAG, payload, CHECK, the bytes from LEN to CHECK summing to 0 modulo 256 (R157). -/
def frameBytes (kind tag : Byte) (payload : List Byte) : List Byte :=
  let body := BitVec.ofNat 8 (payload.length + 2) :: kind :: tag :: payload
  0xA5 :: (body ++ [-(byteSum body)])

/-- A reply frame: KIND 0xC0, the command's tag, the status, the kind answered, the result fields (R163). -/
def Reply.frame (r : Reply) : List Byte := frameBytes Kind.reply r.tag (r.status.code :: r.kind :: r.results)

/-- A notice frame: KIND 0xC1, TAG 0x00 and one notice entry (R171). -/
def noticeFrame (entry : List Byte) : List Byte := frameBytes Kind.notice 0 entry

/-- The hello message: KIND 0xC2, TAG 0x00, the reset cause and the revision code (R182). -/
def helloFrame (cause : ResetCause) : List Byte := frameBytes Kind.hello 0 [cause.code, Config.revision]

end Sys2Proof.Machine
end

