-- ==== Sys2Proof/Machine/Ops.lean ====
section
/-! DEFINITION. The operations that several blocks share: reading and writing a channel, the clock, raising a notice and
the uplink's choice, entering a reply, the operations table, the dropout log, and the levels and drives of the cue
lines. -/

namespace Sys2Proof.Machine

/-! ## Channels and the clock -/

/-- The channel of a number. -/
def Device.chan (d : Device) (c : Chan) : Channel := d.chans[c]

/-- The device with one channel replaced. -/
def Device.setChan (d : Device) (c : Chan) (ch : Channel) : Device := { d with chans := d.chans.set c ch }

/-- The device with one channel changed. -/
def Device.modChan (d : Device) (c : Chan) (f : Channel → Channel) : Device := d.setChan c (f (d.chan c))

/-- The four channels, in the order their numbers give. -/
def allChans : List Chan := [0, 1, 2, 3]

/-- The reading of the 27 MHz reference at an event: never earlier than the reading before it. -/
def Device.arrive (t : Ticks) (d : Device) : Device := { d with now := max d.now t }

/-! ## Notices (R169 to R171) and the uplink (R165) -/

/-- Where the record of a source stands: its number less one. -/
def Source.index : Source → Fin 28
  | .linkFault => 0
  | .logOverflow => 1
  | .input c => ⟨2 + c.val, by omega⟩
  | .timing c => ⟨6 + c.val, by omega⟩
  | .slip c => ⟨10 + c.val, by omega⟩
  | .edit c => ⟨14 + c.val, by omega⟩
  | .cadence c => ⟨18 + c.val, by omega⟩
  | .burst c => ⟨22 + c.val, by omega⟩
  | .logWatermark => 26
  | .cueEdge => 27

/-- The record of a source. -/
def Device.notice (d : Device) (src : Source) : NoticeRecord := d.notices[src.index]

/-- What a second raise leaves in the detail (R170): the newest detail, but for CUE_EDGE the masks together. -/
def Detail.coalesce : Detail → Detail → Detail
  | .cueEdge m _, .cueEdge m' last => .cueEdge (m ||| m') last
  | _, new => new

/-- What a raise does to a record (R170). -/
def NoticeRecord.raise (r : NoticeRecord) (detail : Detail) : NoticeRecord :=
  match r.raised with
  | none => { r with raised := some detail, superseded := false }
  | some old => { r with raised := some (old.coalesce detail), superseded := true }

/-- The record with its source lowered: flags clear, no detail, the level kept (R171, R173). -/
def NoticeRecord.lower (r : NoticeRecord) : NoticeRecord := NoticeRecord.lowered r.level

/-- The better of two records' places for the arbiter's choice (R171): the raised source of the higher level above 0,
and of two equal levels the earlier. -/
def betterSource (ns : Vector NoticeRecord 28) (best : Option (Fin 28)) (i : Fin 28) : Option (Fin 28) :=
  if ns[i].raised.isSome ∧ 0 < ns[i].level.val then
    match best with
    | none => some i
    | some j => if ns[j].level.val < ns[i].level.val then some i else some j
  else best

/-- The source that the arbiter names (R171): the raised source with the highest level above 0, the lowest number
among several. -/
def namedSource (ns : Vector NoticeRecord 28) : Option (Fin 28) :=
  (List.finRange 28).foldl (betterSource ns) none

/-- The notice frame of the record at a place, formed when its sending begins (R171). -/
def noticeFrameOf (ns : Vector NoticeRecord 28) (i : Fin 28) : List Byte :=
  match ns[i].raised with
  | some detail => noticeFrame (noticeEntry (i.val + 1) ns[i].level ns[i].superseded detail)
  | none => []

/-- The uplink's choice (R165, R171), made whenever it is IDLE once the hello message has gone: the oldest reply,
otherwise the source the arbiter names, otherwise nothing.  The message chosen begins at once. -/
def Device.choose (d : Device) : Device :=
  match d.phase, d.uplink with
  | .operating, .idle =>
    match d.replies with
    | r :: rest => { d with uplink := .sending r.frame d.now, replies := rest }
    | [] =>
      match namedSource d.notices with
      | some i =>
        { d with
          uplink := .sending (noticeFrameOf d.notices i) d.now
          notices := d.notices.set i d.notices[i].lower }
      | none => d
  | _, _ => d

/-- A block raises a source (R170); an IDLE uplink makes its choice at that moment. -/
def Device.raise (src : Source) (detail : Detail) (d : Device) : Device :=
  ({ d with notices := d.notices.set src.index ((d.notice src).raise detail) } : Device).choose

/-- A source is lowered without being sent, its level kept (R148, R173, R174). -/
def Device.lower (src : Source) (d : Device) : Device :=
  { d with notices := d.notices.set src.index (d.notice src).lower }

/-- A reply enters the reply queue (R164); an IDLE uplink makes its choice at that moment (R165). -/
def Device.enterReply (r : Reply) (d : Device) : Device :=
  ({ d with replies := d.replies ++ [r] } : Device).choose

/-- The reply to a short command, or a refusal (R163). -/
def Device.answer (tag kind : Byte) (status : Status) (results : List Byte) (d : Device) : Device :=
  d.enterReply ⟨tag, status, kind, results⟩

/-! ## The operations table (R152 to R156) -/

/-- The KIND code of the command that an operation came from. -/
def OpKind.code : OpKind → Byte
  | .commit => Kind.planCommit
  | .refresh _ => Kind.contextRefresh
  | .flush _ => Kind.historyFlush
  | .timing => Kind.timingSelect
  | .stop => Kind.channelStop

/-- Kinds of operation without their data, to ask which operations are pending (R154). -/
inductive OpName where
  | commit
  | refresh
  | flush
  | timing
  | stop
  deriving DecidableEq, Repr

/-- The kind of an operation without its data. -/
def OpKind.name : OpKind → OpName
  | .commit => .commit
  | .refresh _ => .refresh
  | .flush _ => .flush
  | .timing => .timing
  | .stop => .stop

/-- A target whose done flag is clear on channel c. -/
def Target.pendingOn (c : Chan) (t : Target) : Bool := decide (t.chan = c) && decide (t.flag = .clear)

/-- An operation is pending on a channel while its done flag for it is clear (R154). -/
def Operation.pendingOn (c : Chan) (o : Operation) : Bool := o.targets.any (Target.pendingOn c)

/-- The operation of a kind that is pending on a channel. -/
def Device.pendingOp (d : Device) (k : OpName) (c : Chan) : Option Operation :=
  d.ops.find? fun o => decide (o.kind.name = k) && o.pendingOn c

/-- Whether an operation of a kind is pending on a channel. -/
def Device.isPending (d : Device) (k : OpName) (c : Chan) : Bool := (d.pendingOp k c).isSome

/-- The tag check of R153. -/
def Device.tagInUse (d : Device) (tag : Byte) : Bool := d.ops.any fun o => decide (o.tag = tag)

/-- All four operation slots are in flight (R152, R153). -/
def Device.slotsFull (d : Device) : Bool := decide (Config.operationSlots ≤ d.ops.length)

/-- An operation completes when no target flag is clear (R152). -/
def Operation.complete (o : Operation) : Bool := o.targets.all fun t => decide (t.flag ≠ .clear)

/-- The channels whose target flag is `done`. -/
def Operation.doneChans (o : Operation) : List Chan :=
  (o.targets.filter fun t => decide (t.flag = .done)).map (·.chan)

/-- ABORTED when any target flag is aborted, FAILED for a failed acquisition, OK otherwise (R155). -/
def Operation.status (o : Operation) : Status :=
  if o.targets.any fun t => decide (t.flag = .aborted) then .aborted
  else
    match o.result with
    | .timing .absent _ _ => .failed
    | .timing .wrongFamily _ _ => .failed
    | .timing .unstable _ _ => .failed
    | _ => .ok

/-- The byte of a flush reply for one channel: the scope performed, or 0xFF when it was not flushed (R168). -/
def Operation.flushByte (o : Operation) (c : Chan) : Byte :=
  match o.targets.find? fun t => decide (t.chan = c) && decide (t.flag = .done) with
  | some t => (t.performed.map FlushDone.code).getD 0xFF
  | none => 0xFF

/-- The result fields of an operation's reply (R168): carried by a refresh and a flush with OK and with ABORTED, by a
commit with OK, by a timing select with OK and with FAILED. -/
def Operation.results (o : Operation) : List Byte :=
  match o.kind with
  | .refresh performed => [performed.code, chanSet o.doneChans]
  | .flush _ => [chanSet (o.targets.map (·.chan)), chanSet o.doneChans] ++ allChans.map o.flushByte
  | .commit =>
    match o.status, o.result with
    | .aborted, _ => []
    | _, .committed n => byte1 n
    | _, _ => []
  | .timing =>
    match o.status, o.result with
    | .aborted, _ => []
    | _, .timing reason source state => [reason.code, source.code, state.code]
    | _, _ => []
  | .stop => []

/-- The reply of an operation that completes (R155). -/
def Operation.reply (o : Operation) : Reply := ⟨o.tag, o.status, o.kind.code, o.results⟩

/-- When the operation of a tag has no clear flag left, its slot becomes free and its reply enters the reply queue
(R152, R155). -/
def Device.completeOp (tag : Byte) (d : Device) : Device :=
  match d.ops.find? fun o => decide (o.tag = tag) with
  | some o =>
    if o.complete then
      ({ d with ops := d.ops.filter fun o => decide (o.tag ≠ tag) } : Device).enterReply o.reply
    else d
  | none => d

/-- A target's done flag leaves `clear` (R152, R156). -/
def Target.settle (c : Chan) (flag : DoneFlag) (performed : Option FlushDone) (t : Target) : Target :=
  if t.pendingOn c then { t with flag := flag, performed := performed } else t

/-- The operation with its done flag for a channel set, and with a result detail where the work gives one. -/
def Operation.settle (c : Chan) (flag : DoneFlag) (performed : Option FlushDone) (result : OpResult)
    (o : Operation) : Operation :=
  { o with
    targets := o.targets.map (Target.settle c flag performed)
    result := if result = .none then o.result else result }

/-- The work of the operation of a tag is finished for a channel: its done flag is set, and it completes when no flag
is clear any more (R152, R155). -/
def Device.settleOp (tag : Byte) (c : Chan) (flag : DoneFlag) (performed : Option FlushDone) (result : OpResult)
    (d : Device) : Device :=
  ({ d with ops := d.ops.map fun o => if o.tag = tag then o.settle c flag performed result else o } :
    Device).completeOp tag

/-- A long command that passed its checks takes a slot (R152). -/
def Device.takeSlot (tag : Byte) (kind : OpKind) (targets : List Chan) (d : Device) : Device :=
  { d with ops := d.ops ++ [⟨tag, kind, targets.map fun c => ⟨c, .clear, none⟩, .none⟩] }

/-! ## The dropout log (R62, R63) -/

/-- A closed record is handed to the log: appended while the log holds fewer than 256 records, discarded otherwise. -/
def Device.logRecord (d : Device) (r : DropRecord) : Device :=
  if d.dropLog.length < Config.logDepth then
    let d' : Device := { d with dropLog := d.dropLog ++ [r] }
    if d'.dropLog.length = d.watermark then d'.raise .logWatermark (.logWatermark d'.dropLog.length) else d'
  else
    let d' : Device := { d with overflow := true }
    if d.overflow then d' else d'.raise .logOverflow .logOverflow

/-! ## Cue lines (R178, R179) -/

/-- The cadence states in which a TALLY_FILM line is driven low (R179). -/
def Cadence.isFilm : Cadence → Bool
  | .film22 _ => true
  | .film32 _ => true
  | .forced22 _ => true
  | .forced32 _ => true
  | .seek => false
  | .video => false
  | .forcedVideo => false

/-- Whether a source is raised with a level at or above a threshold (R179, ATTENTION). -/
def Device.attention (d : Device) (threshold : Fin 8) : Bool :=
  d.notices.toList.any fun r => r.raised.isSome && decide (threshold ≤ r.level)

/-- The record of a cue line. -/
def Device.cue (d : Device) (n : CueNo) : CueRecord := d.cues[n]

/-- Whether the part drives a line low (R179). -/
def Device.drives (d : Device) (n : CueNo) : Bool :=
  match (d.cue n).function with
  | .general => (d.cue n).drivesLow
  | .editMark _ => false
  | .freeze _ => false
  | .tallyDropout c => (d.chan c).dropState
  | .tallyFilm c => (d.chan c).tracker.cadence.isFilm
  | .attention t => d.attention t

/-- The level a line stands at: an open-drain line is low when the part or the outside pulls it low (chapter 12,
introduction).  `true` is high. -/
def Device.lineLevel (d : Device) (n : CueNo) : Bool := d.cueOutside[n] && !d.drives n

/-- The level that a polarity names: high for RISING and HIGH, low for FALLING and LOW (R178). -/
def Polarity.level : Polarity → Bool
  | .high => true
  | .low => false

/-- The sensed level of a line (R178): its physical level with input on, the inactive level of its polarity with
input off. -/
def Device.sensed (d : Device) (n : CueNo) : Bool :=
  if (d.cue n).inputOn then d.lineLevel n else !(d.cue n).polarity.level

/-- The sensed level equals the level the line's polarity names (R178). -/
def Device.cueActive (d : Device) (n : CueNo) : Bool := decide (d.sensed n = (d.cue n).polarity.level)

/-- The cue freeze level of a channel (R133, R178): at least one FREEZE line naming it is active. -/
def Device.cueFreeze (d : Device) (c : Chan) : Bool :=
  (List.finRange 8).any fun n => decide ((d.cue n).function = .freeze c) && d.cueActive n

/-- A channel is frozen when its command freeze flag is set or its cue freeze level is active (R133). -/
def Device.frozen (d : Device) (c : Chan) : Bool := (d.chan c).sync.freeze || d.cueFreeze c

/-- An active edge on a line is acted on by function (R178): GENERAL raises CUE_EDGE with the line, EDIT_MARK sets the
edit-mark latch of its channel (R9); the other functions make nothing of an edge. -/
def Device.activeEdge (n : CueNo) (d : Device) : Device :=
  match (d.cue n).function with
  | .general => d.raise .cueEdge (.cueEdge (cueMask fun m => decide (m = n)) n)
  | .editMark c => d.modChan c fun ch => { ch with intake := { ch.intake with editMark := true } }
  | _ => d

/-- What a change of a line's level does (R178): when the sensed level has changed since `before`, that is an edge; it
is active when it runs toward the level the polarity names. -/
def Device.edgeSince (n : CueNo) (before : Bool) (d : Device) : Device :=
  if d.sensed n ≠ before ∧ d.cueActive n then d.activeEdge n else d

end Sys2Proof.Machine
end

