-- ==== Sys2Proof/Machine/Flags.lean ====
section
/-! DEFINITION. The metrics R and C of a field and the flags of its signature (R68 to R72). -/

namespace Sys2Proof.Machine

/-- A luma code of a field as stored; a line or column that is not there reads 0.  Every field that is kept holds all
its lines (R11), so no metric and no frame reads that 0. -/
def Slot.luma (s : Slot) (l x : Nat) : Nat :=
  match s.lines[l]? with
  | some line => ((line.y[x]?).map BitVec.toNat).getD 0
  | none => 0

/-- The field before the newest of a ring, or of the fields up to it (section 1.2). -/
def previousField (ring : List Slot) : Option Slot := ring.dropLast.getLast?

/-- The second field before the newest of a ring. -/
def secondPreviousField (ring : List Slot) : Option Slot := ring.dropLast.dropLast.getLast?

/-- A luma code as the metrics read it, limited to 4 to 1019 (R69). -/
def Slot.metricLuma (s : Slot) (l x : Nat) : Nat := max 4 (min 1019 (s.luma l x))

/-- |a − b|. -/
def absDiff (a b : Nat) : Nat := (a - b) + (b - a)

/-- The grid lines 2, 4, 6 … L − 2 (R69). -/
def gridLines (y : System) : List Nat := (List.range (y.fieldLines / 2 - 1)).map fun i => 2 * (i + 1)

/-- The grid columns 0, 4, 8 … 716 (R69). -/
def gridColumns : List Nat := (List.range 180).map fun i => 4 * i

/-- A sum over the grid, divided by the grid count and rounded down (R70, R71). -/
def gridMean (y : System) (f : Nat → Nat → Nat) : Nat :=
  (((gridLines y).map fun l => (gridColumns.map fun x => f l x).sum).sum) / ((gridLines y).length * gridColumns.length)

/-- A present neighbour whose stale flag is clear. -/
def cleanField (s : Option Slot) : Option Slot := s.filter fun s => !s.stale

/-- The metric R (R70): field n against field n−2, absent when n−2 is absent or stale. -/
def metricR (y : System) (n : Slot) (prev2 : Option Slot) : Option Nat :=
  (cleanField prev2).map fun p => gridMean y fun l x => absDiff (n.metricLuma l x) (p.metricLuma l x)

/-- The comb value of a sample between its two vertical neighbours (R71). -/
def combValue (v a b : Nat) : Nat :=
  if min a b ≤ v ∧ v ≤ max a b then 0 else min (absDiff v a) (absDiff v b)

/-- The metric C (R71): field n between the lines of field n−1, absent when n−1 is absent, stale or of the same
identity. -/
def metricC (y : System) (n : Slot) (prev1 : Option Slot) : Option Nat :=
  ((cleanField prev1).filter fun p => decide (p.identity ≠ n.identity)).map fun p =>
    gridMean y fun l x =>
      let above := if topField y n.identity then l - 1 else l
      combValue (n.metricLuma l x) (p.metricLuma above x) (p.metricLuma (above + 1) x)

/-- The flags of R72 from the two metrics, the thresholds of the field's own context copy and its malformed flag. -/
def signatureOf (n : Slot) (r c : Option Nat) : Signature where
  seq := n.seq
  repeats := r.any fun v => decide (v < n.context.params.repeatThreshold)
  pairs := c.any fun v => decide (v < n.context.params.combThreshold)
  usable := r.isSome && c.isSome && !n.malformed

/-- The signature of the newest field of a ring (R68). -/
def fieldSignature (y : System) (ring : List Slot) (n : Slot) : Signature :=
  signatureOf n (metricR y n (secondPreviousField ring)) (metricC y n (previousField ring))

end Sys2Proof.Machine
end

