-- ==== Sys2Proof/Machine/Dropouts.lean ====
section
/-! DEFINITION. Dropout runs, their concealment and their records (R52 to R60). -/

namespace Sys2Proof.Machine

/-! ## Runs (R52) -/

/-- A sequence of low samples from `start` to before `stop`, where it is at least `minLen` long. -/
def runEnding (minLen : Nat) (start : Option Nat) (stop : Nat) : List Span :=
  match start with
  | some s => if minLen ≤ stop - s then [⟨s, stop - 1⟩] else []
  | none => []

/-- The runs of low samples at least `minLen` long in the luma samples from a column on, left to right; `start` is the
first column of the low sequence that reaches up to the column. -/
def findRuns (level minLen : Nat) : Nat → Option Nat → List Sample → List Span
  | col, start, [] => runEnding minLen start col
  | col, start, v :: rest =>
    if v.toNat < level then findRuns level minLen (col + 1) (some (start.getD col)) rest
    else runEnding minLen start col ++ findRuns level minLen (col + 1) none rest

/-- The dropout runs of a line as received (R52), by a profile's drop run and drop level. -/
def lineRuns (p : Profile) (line : Line) : List Span := findRuns p.dropLevel p.dropRun 0 none line.y.toList

/-! ## Concealment (R54, R55) -/

/-- Column `i` lies within a span. -/
def Span.has (s : Span) (i : Nat) : Bool := decide (s.first ≤ i) && decide (i ≤ s.last)

/-- Chroma pair `j` lies within ⌊first/2⌋ to ⌊last/2⌋ of a span. -/
def Span.hasPair (s : Span) (j : Nat) : Bool := decide (s.first / 2 ≤ j) && decide (j ≤ s.last / 2)

/-- A line with the luma of a span and the chroma pairs under it replaced by another line's (R54, R55). -/
def concealSpan (src : Line) (dst : Line) (s : Span) : Line where
  y := tabulate 720 fun i => if s.has i then src.y.toArray.getD i 0 else dst.y.toArray.getD i 0
  cb := tabulate 360 fun j => if s.hasPair j then src.cb.toArray.getD j 0 else dst.cb.toArray.getD j 0
  cr := tabulate 360 fun j => if s.hasPair j then src.cr.toArray.getD j 0 else dst.cr.toArray.getD j 0

/-- A line with several spans replaced by another line's. -/
def concealSpans (src : Line) (dst : Line) (spans : List Span) : Line := spans.foldl (concealSpan src) dst

/-- The line that the runs of field line l are concealed from (R54, R55): field n−2's line l, or line l − 1 of the field
itself; none with source NONE, and none yet for line 0 with LINE_ABOVE. -/
def concealFrom (source : ConcealSource) (l : Nat) (own : List Line) (prev2 : Option Slot) : Option Line :=
  match source with
  | .previousFrame => prev2.bind fun p => p.lines[l]?
  | .lineAbove => if l = 0 then none else own[l - 1]?
  | .none => none

/-- The lines of a field after field line l with its runs has arrived (R54, R55): the line concealed and stored, and
line 0's pending runs filled from line 1 once that has been concealed. -/
def storeLine (source : ConcealSource) (l : Nat) (own : List Line) (prev2 : Option Slot) (pending0 : List Span)
    (line : Line) (runs : List Span) : List Line :=
  let stored :=
    match concealFrom source l own prev2 with
    | some src => concealSpans src line runs
    | none => line
  let lines := own ++ [stored]
  if l = 1 ∧ source = .lineAbove then
    match lines with
    | line0 :: rest => concealSpans stored line0 pending0 :: rest
    | [] => []
  else lines

/-! ## Records (R56 to R60) -/

/-- The last line of a record (R56). -/
def DropRecord.lastLine (r : DropRecord) : Nat := r.firstLine + r.lineCount - 1

/-- Two spans overlap when each starts at or before the other's last sample (R57). -/
def Span.overlaps (a b : Span) : Bool := decide (a.first ≤ b.last) && decide (b.first ≤ a.last)

/-- The union of two spans (R57). -/
def Span.union (a b : Span) : Span := ⟨min a.first b.first, max a.last b.last⟩

/-- A run on line l may join an open record (R57): the record's last line is l − 1, and the spans overlap. -/
def DropRecord.admits (r : DropRecord) (l : Nat) (run : Span) : Bool :=
  decide (r.lastLine + 1 = l) && r.span.overlaps run

/-- A record that a run of the next line joins (R57). -/
def DropRecord.join (r : DropRecord) (run : Span) : DropRecord :=
  { r with lineCount := r.lineCount + 1, span := r.span.union run }

/-- A run joins the first open record that admits it; `none` when none does (R57). -/
def joinFirst (l : Nat) (run : Span) : List DropRecord → Option (List DropRecord)
  | [] => none
  | r :: rest => if r.admits l run then some (r.join run :: rest) else (joinFirst l run rest).map (r :: ·)

/-- The record that a run opens (R56, R57). -/
def openRecord (c : Chan) (slot : Slot) (source : ConcealSource) (l : Nat) (run : Span) : DropRecord where
  chan := c
  seq := slot.seq
  fieldCount := slot.fieldCount
  identity := slot.identity
  firstLine := l
  lineCount := 1
  span := run
  source := source

/-- One run of field line l is recorded (R57, R59): it joins a record, opens one, or, when eight have been opened in
the field, is not recorded.  The flag says that this run raises BURST. -/
def recordRun (c : Chan) (slot : Slot) (l : Nat) (f : InField) (run : Span) : InField × Bool :=
  match joinFirst l run f.openRecords with
  | some records => ({ f with openRecords := records }, false)
  | none =>
    if f.opened < Config.recordsPerField then
      ({ f with openRecords := f.openRecords ++ [openRecord c slot f.source l run], opened := f.opened + 1 }, false)
    else ({ f with burst := true }, !f.burst)

/-- The runs of a line are recorded from left to right (R52, R57); the flag says that one of them raises BURST. -/
def recordRuns (c : Chan) (slot : Slot) (l : Nat) (f : InField) : List Span → InField × Bool
  | [] => (f, false)
  | run :: rest =>
    let one := recordRun c slot l f run
    let others := recordRuns c slot l one.1 rest
    (others.1, one.2 || others.2)

/-- The records handed to the log in order (R58, R60, R62). -/
def Device.logRecords (d : Device) (rs : List DropRecord) : Device := rs.foldl Device.logRecord d

/-- The concealment source of a field, from its own copy and field n−2 (R53). -/
def concealSourceOf (n : Slot) (prev2 : Option Slot) : ConcealSource :=
  if !n.context.params.conceal then .none
  else if (cleanField prev2).any fun p => decide (p.identity = n.identity) then .previousFrame
  else .lineAbove

/-- The field in intake at its field start (R10, R53, R59). -/
def InField.begin (source : ConcealSource) : InField where
  lineCount := 0
  source := source
  openRecords := []
  opened := 0
  burst := false
  pendingLine0 := []
  concealed := false

/-- The field in intake after field line l with its runs has been examined (R53, R55, R58, R61): with LINE_ABOVE the
runs of line 0 wait for line 1; a run is concealed unless the source is NONE; the records whose last line is l stay
open. -/
def InField.examined (f : InField) (l : Nat) (runs : List Span) : InField :=
  { f with
    openRecords := f.openRecords.filter fun r => decide (r.lastLine + 1 ≠ l)
    pendingLine0 := if f.source = .lineAbove then (if l = 0 then runs else []) else []
    concealed := f.concealed || (decide (f.source ≠ .none) && !runs.isEmpty) }

/-- A line arrives for the field in intake (R10): it is counted; while the count does not exceed the field lines it is
examined, concealed and stored. -/
def Device.intakeLine (c : Chan) (line : Line) (d : Device) : Device :=
  let ch := d.chan c
  match ch.intake.field, ch.intake.ring.getLast? with
  | some f, some slot =>
    let f := { f with lineCount := f.lineCount + 1 }
    if ch.settings.system.fieldLines < f.lineCount then
      d.setChan c { ch with intake := { ch.intake with field := some f } }
    else
      let l := f.lineCount - 1
      let runs := lineRuns slot.context.params line
      let (f', burst) := recordRuns c slot l f runs
      let slot' : Slot :=
        { slot with
          lines := storeLine f.source l slot.lines (secondPreviousField ch.intake.ring) f.pendingLine0 line runs }
      let closed := f'.openRecords.filter fun r => decide (r.lastLine + 1 = l)
      let ring := ch.intake.ring.dropLast ++ [slot']
      let d := d.setChan c { ch with intake := { ch.intake with field := some (f'.examined l runs), ring := ring } }
      let d := if burst then d.raise (.burst c) (.burst slot.seq) else d
      d.logRecords closed
  | _, _ => d

/-- The field in intake is let go with its open records closed into the log (R58, R60).  DESIGN CHOICE (log 6): R58 orders
the records that close at the end of a line, and of several that are open when the field is let go it states no order;
they close in the order they were opened. -/
def Device.closeField (c : Chan) (d : Device) : Device :=
  let ch := d.chan c
  match ch.intake.field with
  | some f => (d.setChan c { ch with intake := { ch.intake with field := none } }).logRecords f.openRecords
  | none => d

end Sys2Proof.Machine
end

