-- ==== Sys2Proof/Machine/Timecode.lean ====
section
/-! DEFINITION. Timecode validity, field counts, the jump test and the forced phase (R19 to R25). -/

namespace Sys2Proof.Machine

/-- The base of a timecode on a channel of a system: the system together with the drop-frame flag (R20). -/
def baseOf : System → Bool → Base
  | .s625, _ => .b625
  | .s525, false => .b525ndf
  | .s525, true => .b525df

/-- The tests of R19 that need the timecode alone (R27 makes these, and not the label-only tests, on plan entries). -/
def timecodeValid (y : System) (tc : Timecode) : Bool :=
  decide (tc.hours ≤ 23) && decide (tc.minutes ≤ 59) && decide (tc.seconds ≤ 59) &&
  decide (tc.frames ≤ match y with | .s625 => 24 | .s525 => 29) &&
  !(tc.drop && decide (y = .s625)) &&
  !(tc.drop && decide (tc.seconds = 0) && decide (tc.frames ≤ 1) && decide (tc.minutes % 10 ≠ 0))

/-- The frame number N of R20. -/
def frameNumber (b : Base) (tc : Timecode) : Nat :=
  let m := 60 * tc.hours + tc.minutes
  let t := 3600 * tc.hours + 60 * tc.minutes + tc.seconds
  match b with
  | .b625 => 25 * t + tc.frames
  | .b525ndf => 30 * t + tc.frames
  | .b525df => 30 * t + tc.frames - 2 * (m - m / 10)

/-- The field count: 2N for F1 and 2N + 1 for F2 (R20). -/
def fieldCountOf (b : Base) (tc : Timecode) (i : Identity) : Nat :=
  2 * frameNumber b tc + match i with | .f1 => 0 | .f2 => 1

/-- The fields in a day of a base, D (R21). -/
def dayFields : Base → Nat
  | .b625 => 4320000
  | .b525ndf => 5184000
  | .b525df => 5178816

/-- The successor of a count in the same base (R21). -/
def Count.successor (k : Count) : Count := ⟨k.base, (k.count + 1) % dayFields k.base⟩

/-- The count of a label on a channel: `none` when R19 judges its timecode invalid, otherwise R20's count. -/
def labelCount (s : Settings) (label : Label) : Option Count :=
  match label.timecode with
  | none => none
  | some tc =>
    if s.timecodeUse && label.tcValid && timecodeValid s.system tc then
      let b := baseOf s.system tc.drop
      some ⟨b, fieldCountOf b tc label.identity⟩
    else none

/-- The jump test of R22: both counts are present and the new one is not the successor of the last. -/
def jumpTest (last new : Option Count) : Bool :=
  match last, new with
  | some l, some n => decide (n ≠ l.successor)
  | _, _ => false

/-- The phase modulo 2 of a number. -/
def phase2 (n : Nat) : Fin 2 := ⟨n % 2, by omega⟩

/-- The phase modulo 5 of a number. -/
def phase5 (n : Nat) : Fin 5 := ⟨n % 5, by omega⟩

/-- The number R24 takes modulo P under a valid timecode: the count, from the start of the entry selected where one is,
plus the offset. -/
def phaseNumber (k : Count) (selection : Option Selection) (offset : Nat) : Nat :=
  match selection with
  | some s => k.count - s.startCount + offset
  | none => k.count + offset

/-- The forced phase of the field being taken in (R24), which is also the new phase memory (R25): none in AUTO and
FORCE_VIDEO; from the count under a valid timecode; otherwise one on from the memory, or 0 when the memory is empty or
holds a phase of the other period. -/
def forcedPhase (p : Profile) (k : Option Count) (selection : Option Selection) (memory : Option ForcedPhase) :
    Option ForcedPhase :=
  match p.mode with
  | .auto => none
  | .forceVideo => none
  | .force22 =>
    some (.of22 (match k, memory with
      | some k, _ => phase2 (phaseNumber k selection p.phaseOffset)
      | none, some (.of22 q) => phase2 (q.val + 1)
      | none, _ => 0))
  | .force32 =>
    some (.of32 (match k, memory with
      | some k, _ => phase5 (phaseNumber k selection p.phaseOffset)
      | none, some (.of32 q) => phase5 (q.val + 1)
      | none, _ => 0))

end Sys2Proof.Machine
end

