-- ==== Sys2Proof/Machine/CadenceTracker.lean ====
section
/-! DEFINITION. The Cadence Tracker (R73 to R85, R87). -/

namespace Sys2Proof.Machine

/-- The signature history with a signature appended: the last ten (R73). -/
def appendSignature (history : List Signature) (sig : Signature) : List Signature :=
  let h := history ++ [sig]
  h.drop (h.length - Config.signatureDepth)

/-- The unusable-run counter after a signature (R73). -/
def countUnusable (counter : Nat) (sig : Signature) : Nat :=
  if sig.usable then 0 else min 3 (counter + 1)

/-- The newest n signatures of a history. -/
def newest (n : Nat) (h : List Signature) : List Signature := h.drop (h.length - n)

/-- The pair flags alternate, each differing from the one before it (R77, test 2). -/
def alternating : List Bool → Bool
  | a :: b :: rest => (a != b) && alternating (b :: rest)
  | _ => true

/-- Test 1 of R77: the phase, when ten usable signatures hold exactly two repeat flags, at indices j − 5 and j. -/
def film32Test (h : List Signature) : Option (Fin 5) :=
  if h.length = 10 ∧ h.all (·.usable) then
    ([5, 6, 7, 8, 9].find? fun j =>
      decide (h.map (·.repeats) = (List.range 10).map fun i => decide (i + 5 = j) || decide (i = j))).map
      fun j => phase5 (9 - j)
  else none

/-- Test 2 of R77: the phase, when the newest eight are usable, carry no repeat flag and alternate in pairs. -/
def film22Test (h : List Signature) : Option (Fin 2) :=
  let w := newest 8 h
  if 8 ≤ h.length ∧ w.all (fun s => s.usable && !s.repeats) ∧ alternating (w.map (·.pairs)) then
    (w.getLast?).map fun s => if s.pairs then 1 else 0
  else none

/-- Test 3 of R77: the newest six are usable, carry no repeat flag, and at least four have the pair flag clear. -/
def videoTest (h : List Signature) : Bool :=
  let w := newest 6 h
  decide (6 ≤ h.length) && w.all (fun s => s.usable && !s.repeats) &&
  decide (4 ≤ (w.filter fun s => !s.pairs).length)

/-- A break (R76): SEEK, the history cleared, the counter 0. -/
def Tracker.broken : Tracker := ⟨.seek, [], 0⟩

/-- The step of R74 for a field in AUTO, on a tracker whose history and counter already hold the signature.
`third` says that the signature raised the counter to 3 (R75). -/
def Tracker.autoStep (t : Tracker) (sig : Signature) (third : Bool) : Tracker × CadenceReason :=
  match t.cadence with
  | .seek =>
    match film32Test t.history, film22Test t.history, videoTest t.history with
    | some p, _, _ => ({ t with cadence := .film32 p }, .lock)
    | none, some p, _ => ({ t with cadence := .film22 p }, .lock)
    | none, none, true => ({ t with cadence := .video }, .lock)
    | none, none, false => (t, .lock)
  | .video =>
    if third then (.broken, .unusable)
    else
      match film32Test t.history, film22Test t.history with
      | some p, _ => ({ t with cadence := .film32 p }, .lock)
      | none, some p => ({ t with cadence := .film22 p }, .lock)
      | none, none => (t, .lock)
  | .film32 p =>
    if third then (.broken, .unusable)
    else
      let q := phase5 (p.val + 1)
      if q = 0 ∧ sig.usable ∧ ¬ sig.repeats then (.broken, .break_)
      else ({ t with cadence := .film32 q }, .lock)
  | .film22 p =>
    if third then (.broken, .unusable)
    else
      let q := phase2 (p.val + 1)
      if q = 1 ∧ sig.usable ∧ ¬ sig.pairs then (.broken, .break_)
      else ({ t with cadence := .film22 q }, .lock)
  -- a tracker in a forced state whose field's copy is in AUTO: log 5
  | .forcedVideo => (t, .lock)
  | .forced22 _ => (t, .lock)
  | .forced32 _ => (t, .lock)

/-- The state of a forced mode with the forced phase of a field (R81, R82).  The phase is 0 where there is none of the
mode's period: R82 says so for a reload on a channel that is not RUNNING, and a field taken in under a forced mode
always has one (R24). -/
def forcedState (mode : CadenceMode) (phase : Option ForcedPhase) : Cadence :=
  match mode, phase with
  | .auto, _ => .seek
  | .forceVideo, _ => .forcedVideo
  | .force22, some (.of22 p) => .forced22 p
  | .force22, _ => .forced22 0
  | .force32, some (.of32 p) => .forced32 p
  | .force32, _ => .forced32 0

/-- The tracker's step at a field end (R73, R74, R81), with the reason that a change of state name would carry. -/
def Tracker.step (t : Tracker) (n : Slot) (sig : Signature) : Tracker × CadenceReason :=
  let t' : Tracker := { t with history := appendSignature t.history sig, unusable := countUnusable t.unusable sig }
  match n.context.params.mode with
  | .auto => t'.autoStep sig (decide (t.unusable = 2) && !sig.usable)
  | .forceVideo => ({ t' with cadence := forcedState .forceVideo n.forcedPhase }, .forced)
  | .force22 => ({ t' with cadence := forcedState .force22 n.forcedPhase }, .forced)
  | .force32 => ({ t' with cadence := forcedState .force32 n.forcedPhase }, .forced)

/-- An AUTO state becomes SEEK, a forced state is kept with its phase (R83, R85). -/
def Cadence.seekUnlessForced : Cadence → Cadence
  | .seek => .seek
  | .video => .seek
  | .film22 _ => .seek
  | .film32 _ => .seek
  | .forcedVideo => .forcedVideo
  | .forced22 p => .forced22 p
  | .forced32 p => .forced32 p

/-- The tracker at an edit, a CHANNEL or ALL flush, a loss or a stop completion (R83, R84, R85). -/
def Tracker.cleared (t : Tracker) : Tracker := ⟨t.cadence.seekUnlessForced, [], 0⟩

/-- A channel's tracker takes a new value, and CADENCE is raised when the state name changes (R87). -/
def Device.setTracker (c : Chan) (t : Tracker) (reason : CadenceReason) (d : Device) : Device :=
  let before := (d.chan c).tracker.cadence
  let d' := d.modChan c fun ch => { ch with tracker := t }
  if before.code = t.cadence.code then d' else d'.raise (.cadence c) (.cadence t.cadence reason)

/-- The tracker is told of a change of cadence mode at a reload (R45, R82).  The first reload from an empty context and
a reload that keeps the mode leave it as it is. -/
def Device.tellMode (c : Chan) (before after : Option Context) (phase : Option ForcedPhase) (d : Device) : Device :=
  match before, after with
  | some b, some a =>
    if b.params.mode = a.params.mode then d
    else d.setTracker c { (d.chan c).tracker with cadence := forcedState a.params.mode phase } .forced
  | _, _ => d

end Sys2Proof.Machine
end

