-- ==== Sys2Proof/Machine/Operands.lean ====
section
/-! DEFINITION. How the payload of a command frame is read (R168), field by field: numbers, enumerations, profiles, plan
entries, scopes.  A reader that answers `none` found a range violation of the field (R168: refused RANGE by the
command's own rule). -/

namespace Sys2Proof.Machine

/-- Byte `i` of a payload as a number; 0 beyond its end, which the length check (R163) rules out. -/
def byteAt (p : List Byte) (i : Nat) : Nat := (p.getD i 0).toNat

/-- The two-byte number at `i`, most significant byte first (R157). -/
def wordAt (p : List Byte) (i : Nat) : Nat := 256 * byteAt p i + byteAt p (i + 1)

/-- A channel number; above 3 is a range violation. -/
def chanOf (n : Nat) : Option Chan := if h : n < 4 then some ⟨n, h⟩ else none

/-- A cue line number; above 7 is a range violation (R177). -/
def cueNoOf (n : Nat) : Option CueNo := if h : n < 8 then some ⟨n, h⟩ else none

/-- The on/off enumeration of R168. -/
def onOffOf : Nat → Option Bool
  | 0 => some false
  | 1 => some true
  | _ => none

/-- The system enumeration of R168. -/
def systemOf : Nat → Option System
  | 0 => some .s625
  | 1 => some .s525
  | _ => none

/-- The cadence mode enumeration of R168. -/
def modeOf : Nat → Option CadenceMode
  | 0 => some .auto
  | 1 => some .forceVideo
  | 2 => some .force22
  | 3 => some .force32
  | _ => none

/-- The filter enumeration of R168. -/
def filterOf : Nat → Option Filter
  | 0 => some .cubic
  | 1 => some .linear
  | _ => none

/-- The timing source enumeration of R168. -/
def timingSourceOf : Nat → Option TimingSource
  | 0 => some .internal
  | 1 => some .house
  | 2 => some .input
  | _ => none

/-- The cue polarity enumeration of R168. -/
def polarityOf : Nat → Option Polarity
  | 0 => some .high
  | 1 => some .low
  | _ => none

/-- The cue function enumeration of R168 with its parameter: `none` when the function code is beyond the last value,
`some none` when the parameter is outside the range of the function (R177, checks 1 and 2). -/
def cueFunctionOf (function parameter : Nat) : Option (Option CueFunction) :=
  match function with
  | 0 => some (some .general)
  | 1 => some ((chanOf parameter).map .editMark)
  | 2 => some ((chanOf parameter).map .freeze)
  | 3 => some ((chanOf parameter).map .tallyDropout)
  | 4 => some ((chanOf parameter).map .tallyFilm)
  | 5 => some (if h : 1 ≤ parameter ∧ parameter ≤ 7 then some (.attention ⟨parameter, by omega⟩) else none)
  | _ => none

/-- A value clamped to a range. -/
def clampNat (low high v : Nat) : Nat := max low (min v high)

/-- A border component, clamped to 4 to 1019 at the write (R38). -/
def borderOf (v : Nat) : Sample := BitVec.ofNat 10 (clampNat 4 1019 v)

/-- The ranges of R38, less those of the enumerations, which reading the profile has judged. -/
def Profile.inRange (p : Profile) : Bool :=
  decide (p.phaseOffset ≤ if p.mode = .force22 then 1 else 4) &&
  decide (p.motionLow ≤ 1022) && decide (p.motionLow + 1 ≤ p.motionHigh) && decide (p.motionHigh ≤ 1023) &&
  decide (1 ≤ p.repeatThreshold) && decide (p.repeatThreshold ≤ 255) &&
  decide (1 ≤ p.combThreshold) && decide (p.combThreshold ≤ 255) &&
  decide (p.cropX0 % 2 = 0) && decide (p.cropX0 ≤ 360) &&
  decide (p.cropWidth % 2 = 0) && decide (360 ≤ p.cropWidth) && decide (p.cropX0 + p.cropWidth ≤ 720) &&
  decide (p.cropY0 % 2 = 0) && decide (p.cropY0 ≤ 336) &&
  decide (p.cropHeight % 2 = 0) && decide (240 ≤ p.cropHeight) && decide (p.cropY0 + p.cropHeight ≤ 576) &&
  decide (8 ≤ p.dropRun) && decide (p.dropRun ≤ 255) &&
  decide (4 ≤ p.dropLevel) && decide (p.dropLevel ≤ 63)

/-- The profile in the 26 bytes from `i` on (R168's profile layout), with its border clamped; `none` when it breaks a
range of R38. -/
def profileAt (p : List Byte) (i : Nat) : Option Profile :=
  match modeOf (byteAt p i), filterOf (byteAt p (i + 8)), onOffOf (byteAt p (i + 17)) with
  | some mode, some filter, some conceal =>
    let profile : Profile :=
      { mode := mode
        phaseOffset := byteAt p (i + 1)
        motionLow := wordAt p (i + 2)
        motionHigh := wordAt p (i + 4)
        repeatThreshold := byteAt p (i + 6)
        combThreshold := byteAt p (i + 7)
        filter := filter
        cropX0 := wordAt p (i + 9)
        cropWidth := wordAt p (i + 11)
        cropY0 := wordAt p (i + 13)
        cropHeight := wordAt p (i + 15)
        conceal := conceal
        dropRun := byteAt p (i + 18)
        dropLevel := byteAt p (i + 19)
        border := ⟨borderOf (wordAt p (i + 20)), borderOf (wordAt p (i + 22)), borderOf (wordAt p (i + 24))⟩ }
    if profile.inRange then some profile else none
  | _, _, _ => none

/-- The fields of a plan entry as PLAN_STAGE_ADD carries them (R26, R168). -/
structure EntryFields where
  startTc : Timecode
  endTc : Timecode
  profile : Nat
  edit : Bool
  deriving DecidableEq, Repr

/-- The timecode in the four bytes from `i` on, with a drop-frame flag. -/
def timecodeAt (p : List Byte) (i : Nat) (drop : Bool) : Timecode :=
  ⟨byteAt p i, byteAt p (i + 1), byteAt p (i + 2), byteAt p (i + 3), drop⟩

/-- The plan entry in the ten bytes from `i` on (R168's plan entry layout; the flag bits it does not name are
ignored). -/
def entryAt (p : List Byte) (i : Nat) : EntryFields :=
  let drop := (p.getD (i + 8) 0).getLsbD 0
  { startTc := timecodeAt p i drop
    endTc := timecodeAt p (i + 4) drop
    profile := byteAt p (i + 9)
    edit := (p.getD (i + 8) 0).getLsbD 1 }

/-- The plan entries of a PLAN_STAGE_ADD payload, which follow its channel byte. -/
def entriesOf (p : List Byte) : List EntryFields :=
  (List.range ((p.length - 1) / 10)).map fun k => entryAt p (1 + 10 * k)

/-- The length of a PLAN_STAGE_ADD payload: a channel and 1 to 8 entries of ten bytes (R28, R168). -/
def stageAddLength (n : Nat) : Bool := decide (11 ≤ n) && decide (n ≤ 81) && decide ((n - 1) % 10 = 0)

/-- The scope of a CONTEXT_REFRESH as it is asked (R47). -/
inductive RefreshAsk where
  | channel (c : Chan)
  | profile (id : Nat)
  | all
  deriving DecidableEq, Repr

/-- The scope of a CONTEXT_REFRESH from its two bytes (R47 check 1, R168's scope enumeration). -/
def refreshAskOf (scope argument : Nat) : Option RefreshAsk :=
  match scope with
  | 0 => (chanOf argument).map .channel
  | 1 => if argument ≤ 31 then some (.profile argument) else none
  | 2 => some .all
  | _ => none

/-- A WINDOW rectangle that R102 accepts on a frame of `frameLines` lines. -/
def Rect.acceptable (r : Rect) (frameLines : Nat) : Bool :=
  decide (r.x0 % 2 = 0) && decide (r.y0 % 2 = 0) && decide (r.w % 2 = 0) && decide (r.h % 2 = 0) &&
  decide (r.w ≠ 0) && decide (r.h ≠ 0) && decide (r.x0 + r.w ≤ 720) && decide (r.y0 + r.h ≤ frameLines)

/-- The pairs of NOTICE_LEVEL: source number and level (R172). -/
def pairsOf : List Byte → List (Byte × Byte)
  | a :: b :: rest => (a, b) :: pairsOf rest
  | _ => []

end Sys2Proof.Machine
end

