-- ==== Sys2Proof/Machine/Plans.lean ====
section
/-! DEFINITION. The staged and committed plans, the lookup and the plan mark (R26 to R35). -/

namespace Sys2Proof.Machine

/-- A plan entry with its two counts: field F1 of the start frame and field F2 of the end frame (R26). -/
def EntryFields.convert (e : EntryFields) (b : Base) : PlanEntry where
  startTc := e.startTc
  endTc := e.endTc
  profile := e.profile
  edit := e.edit
  startCount := fieldCountOf b e.startTc .f1
  endCount := fieldCountOf b e.endTc .f2

/-- The checks of R27 on an entry offered to a staged plan, in order: the status of the first that fails, or the plan
with the entry appended. -/
def stageEntry (y : System) (staged : Plan) (e : EntryFields) : Except Status Plan :=
  let b := baseOf y e.startTc.drop
  let entry := e.convert b
  if !(timecodeValid y e.startTc && timecodeValid y e.endTc) then .error .range
  else if 31 < e.profile then .error .range
  else if staged.entries ≠ [] ∧ staged.base ≠ some b then .error .range
  else if entry.endCount < entry.startCount then .error .order
  else if staged.entries.getLast?.any fun last => decide (entry.startCount ≤ last.endCount) then .error .order
  else if Config.planDepth ≤ staged.entries.length then .error .full
  else .ok ⟨some b, staged.entries ++ [entry]⟩

/-- The entries of one PLAN_STAGE_ADD, one after another (R28): the staged plan, the count added and the status. -/
def stageEntries (y : System) : Plan → Nat → List EntryFields → Plan × Nat × Status
  | staged, added, [] => (staged, added, .ok)
  | staged, added, e :: rest =>
    match stageEntry y staged e with
    | .ok staged' => stageEntries y staged' (added + 1) rest
    | .error status => (staged, added, status)

/-- The selection of an entry at an index (R33). -/
def PlanEntry.select (e : PlanEntry) (index : Nat) : Selection :=
  ⟨e.startCount, e.endCount, index, e.profile, e.edit⟩

/-- The first entry, from an index on, that a test picks. -/
def selectWhere (test : PlanEntry → Bool) : Nat → List PlanEntry → Option Selection
  | _, [] => none
  | i, e :: rest => if test e then some (e.select i) else selectWhere test (i + 1) rest

/-- A swap (R32): the staged plan replaces the committed one and is left empty, and a selection that is not none is
sought in the new plan by its start count. -/
def Reader.swap (r : Reader) : Reader :=
  { r with
    committed := r.staged
    staged := .empty
    selection := r.selection.bind fun s => selectWhere (fun e => decide (e.startCount = s.startCount)) 0 r.staged.entries }

/-- The lookup of R33: the selection for a field of a count, held when the field has none. -/
def Reader.lookup (r : Reader) (k : Option Count) : Option Selection :=
  match k with
  | none => r.selection
  | some k =>
    if r.committed.base = some k.base then
      selectWhere (fun e => decide (e.startCount ≤ k.count) && decide (k.count ≤ e.endCount)) 0 r.committed.entries
    else none

/-- The plan mark of R35: a flagged entry is selected under a valid timecode, and its start count differs from the
previous selection's, or there was none. -/
def planMark (k : Option Count) (previous selected : Option Selection) : Bool :=
  match k, selected with
  | some _, some s => s.edit && decide (previous.map Selection.startCount ≠ some s.startCount)
  | _, _ => false

/-- The plan selection as the wire's current entry index (R33, R150). -/
def Selection.indexOf (s : Option Selection) : Option Nat := s.map (·.index)

end Sys2Proof.Machine
end

