-- ==== Sys2Proof/Machine/Contexts.lean ====
section
/-! DEFINITION. The profile table and the reload of a channel's context (R37, R42 to R44). -/

namespace Sys2Proof.Machine

/-- The profile at a place of the profile table: profile 0 at place 0, a slot's profile or nothing at 1 to 31 (R37). -/
def profileAtPlace (slots : Vector (Option Profile) 31) (place : Nat) : Option Profile :=
  if place = 0 then some profile0 else (slots[place - 1]?).join

/-- The crop clamped to the frame of a system (R44). -/
def clampCrop (y : System) (p : Profile) : Profile :=
  let height := min p.cropHeight y.frameLines
  { p with cropHeight := height, cropY0 := min p.cropY0 (y.frameLines - height) }

/-- The reload of R43 for a requested id: the slot it names, otherwise the channel's default profile, otherwise
profile 0, with the crop clamped (R44). -/
def reloadContext (slots : Vector (Option Profile) 31) (s : Settings) (requested : Nat) : Context :=
  match profileAtPlace slots requested, profileAtPlace slots s.defaultProfile with
  | some p, _ => ⟨requested, requested, clampCrop s.system p⟩
  | none, some p => ⟨requested, s.defaultProfile, clampCrop s.system p⟩
  | none, none => ⟨requested, 0, clampCrop s.system profile0⟩

/-- The reload of the not-RUNNING kind (R48, R49): the requested id is kept, and an empty context stays empty. -/
def refreshContext (slots : Vector (Option Profile) 31) (s : Settings) (context : Option Context) : Option Context :=
  context.map fun x => reloadContext slots s x.requested

/-- The profile id that step 3 of a field start hands on (R33). -/
def requestedId (s : Settings) (selection : Option Selection) : Nat :=
  (selection.map (·.profile)).getD s.defaultProfile

/-- Whether step 4 of a field start reloads (R43): the context is empty, the id differs from the one it asked for, or a
refresh is pending. -/
def reloads (context : Option Context) (requested : Nat) (refreshPending : Bool) : Bool :=
  match context with
  | none => true
  | some x => decide (x.requested ≠ requested) || refreshPending

/-- The colour of the border where a context draws it; profile 0's where the context is empty (R42, R120). -/
def borderColour (context : Option Context) : Colour :=
  match context with
  | some x => x.params.border
  | none => profile0.border

end Sys2Proof.Machine
end

