-- ==== Sys2Proof/Machine/FrameBuild.lean ====
section
/-! DEFINITION. The progressive frame built from a reconstruction's view: film weave and motion-adaptive interpolation
(R92 to R100, R107). -/

namespace Sys2Proof.Machine

/-- A Cb code of a field as stored (see `Slot.luma` for what is not there). -/
def Slot.cb (s : Slot) (l j : Nat) : Nat :=
  match s.lines[l]? with
  | some line => ((line.cb[j]?).map BitVec.toNat).getD 0
  | none => 0

/-- A Cr code of a field as stored. -/
def Slot.cr (s : Slot) (l j : Nat) : Nat :=
  match s.lines[l]? with
  | some line => ((line.cr[j]?).map BitVec.toNat).getD 0
  | none => 0

/-- A field of an identity carries frame line y (introduction, 1.7): the top field the even lines, the bottom field the
odd lines.  Frame line y is then its field line ⌊y/2⌋. -/
def carries (sys : System) (i : Identity) (y : Nat) : Bool := decide (y % 2 = 0) == topField sys i

/-- The frame line above a missing one; line 0 takes the line below (R95). -/
def lineAbove (y : Nat) : Nat := if y = 0 then y + 1 else y - 1

/-- The frame line below a missing one; the last frame line takes the line above (R95). -/
def lineBelow (sys : System) (y : Nat) : Nat := if y + 1 = sys.frameLines then y - 1 else y + 1

/-- Column x + d, read at column 0 or 719 where it falls outside (R95). -/
def column (x : Nat) (d : Int) : Nat := (max 0 (min 719 ((x : Int) + d))).toNat

/-- The rounded mean of two codes (R96, R97, R100). -/
def mean2 (a b : Nat) : Nat := (a + b + 1) / 2

/-- The direction of the smallest difference: 0 when it is among the smallest, otherwise −1 (R96). -/
def edgeDirection (dMinus d0 dPlus : Nat) : Int :=
  if d0 ≤ dMinus ∧ d0 ≤ dPlus then 0 else if dMinus ≤ dPlus then -1 else 1

/-- The spatial estimate of luma column x between lines a and b of field n (R96). -/
def spatialLuma (a b : Nat → Nat) (x : Nat) : Nat :=
  let diff (d : Int) := absDiff (a (column x d)) (b (column x (-d)))
  let d := edgeDirection (diff (-1)) (diff 0) (diff 1)
  mean2 (a (column x d)) (b (column x (-d)))

/-- The blend weight from a motion value (R98). -/
def weightOf (p : Profile) (m : Nat) : Nat :=
  if m ≤ p.motionLow then 0
  else if p.motionHigh ≤ m then 16
  else (m - p.motionLow) * 16 / (p.motionHigh - p.motionLow)

/-- The blend of a temporal and a spatial estimate at weight k (R99). -/
def blend (t s k : Nat) : Nat := (t * (16 - k) + s * k + 8) / 16

/-- Column x of frame line y lies inside a rectangle (R98). -/
def Rect.has (r : Rect) (x y : Nat) : Bool :=
  decide (r.x0 ≤ x) && decide (x < r.x0 + r.w) && decide (r.y0 ≤ y) && decide (y < r.y0 + r.h)

/-- Column x of frame line y lies inside field n's window-stale rectangle, or inside the one that field n+1 carries with
remaining count 2 (R94, R98 cases 5 and 6). -/
def View.inWindow (v : View) (x y : Nat) : Bool :=
  (v.field.window.any fun w => w.rect.has x y) ||
  ((v.next.bind (·.window)).any fun w => decide (w.remaining = 2) && w.rect.has x y)

/-- The three neighbours that a temporal estimate needs, when none of cases 1 to 4 of R98 holds. -/
def View.neighbours (v : View) : Option (Slot × Slot × Slot) :=
  match cleanField v.prev1, cleanField v.prev2, v.next with
  | some p1, some p2, some n1 => if p1.identity = v.field.identity then none else some (p1, p2, n1)
  | _, _, _ => none

/-- The motion value of luma column x of missing frame line y (R97). -/
def motionValue (sys : System) (n p1 p2 n1 : Slot) (x y : Nat) : Nat :=
  let la := lineAbove y / 2
  let lb := lineBelow sys y / 2
  max (absDiff (p1.luma (y / 2) x) (n1.luma (y / 2) x))
    (max (absDiff (n.luma la x) (p2.luma la x)) (absDiff (n.luma lb x) (p2.luma lb x)))

/-- The blend weight of luma column x of missing frame line y (R98). -/
def View.weight (sys : System) (v : View) (x y : Nat) : Nat :=
  match v.neighbours with
  | some (p1, p2, n1) =>
    if v.inWindow x y then 16 else weightOf v.field.context.params (motionValue sys v.field p1 p2 n1 x y)
  | none => 16

/-- The spatial estimate of luma column x of missing frame line y (R96). -/
def View.spatial (sys : System) (v : View) (x y : Nat) : Nat :=
  spatialLuma (v.field.luma (lineAbove y / 2)) (v.field.luma (lineBelow sys y / 2)) x

/-- The missing luma sample of a video build (R97 to R99). -/
def View.videoLuma (sys : System) (v : View) (x y : Nat) : Nat :=
  let s := v.spatial sys x y
  match v.neighbours with
  | some (p1, _, n1) =>
    let k := v.weight sys x y
    if k = 16 then s else blend (mean2 (p1.luma (y / 2) x) (n1.luma (y / 2) x)) s k
  | none => s

/-- The spatial estimate of a chroma code of missing frame line y, direction 0 only (R100). -/
def View.spatialChroma (sys : System) (v : View) (code : Slot → Nat → Nat → Nat) (j y : Nat) : Nat :=
  mean2 (code v.field (lineAbove y / 2) j) (code v.field (lineBelow sys y / 2) j)

/-- The missing chroma code of a video build, at the weight of luma column 2j (R100). -/
def View.videoChroma (sys : System) (v : View) (code : Slot → Nat → Nat → Nat) (j y : Nat) : Nat :=
  let s := v.spatialChroma sys code j y
  match v.neighbours with
  | some (p1, _, n1) =>
    let k := v.weight sys (2 * j) y
    if k = 16 then s else blend (mean2 (code p1 (y / 2) j) (code n1 (y / 2) j)) s k
  | none => s

/-- The phase of field n by the cadence state in the view, when the build is a film weave (R92). -/
def View.weavePhase (v : View) : Option ForcedPhase :=
  match v.cadence with
  | some (.film32 p) => some (.of32 (phase5 (p.val + 4)))
  | some (.film22 p) => some (.of22 (phase2 (p.val + 1)))
  | some (.forced32 _) => if v.field.context.params.mode = .force32 then v.field.forcedPhase else none
  | some (.forced22 _) => if v.field.context.params.mode = .force22 then v.field.forcedPhase else none
  | some .seek => none
  | some .video => none
  | some .forcedVideo => none
  | none => none

/-- Whether a phase names field n+1 as the partner, and not field n−1 (R93). -/
def partnerIsNext : ForcedPhase → Bool
  | .of32 p => decide (p = 1) || decide (p = 3)
  | .of22 p => decide (p = 0)

/-- The partner of a film weave, when it can be used; `none` makes the build video (R92, R93). -/
def View.partner (v : View) : Option Slot :=
  match v.weavePhase with
  | none => none
  | some phase =>
    if partnerIsNext phase then
      (cleanField v.next).filter fun p => decide (p.identity ≠ v.field.identity) && !v.field.stale
    else (cleanField v.prev1).filter fun p => decide (p.identity ≠ v.field.identity)

/-- The luma sample at column x of frame line y of the progressive frame (R94, R95, R99). -/
def View.frameLuma (sys : System) (v : View) (x y : Nat) : Nat :=
  if carries sys v.field.identity y then v.field.luma (y / 2) x
  else
    match v.partner with
    | some p => if v.inWindow x y then v.spatial sys x y else p.luma (y / 2) x
    | none => v.videoLuma sys x y

/-- A chroma code of pair j of frame line y of the progressive frame (R94, R95, R100). -/
def View.frameChroma (sys : System) (v : View) (code : Slot → Nat → Nat → Nat) (j y : Nat) : Nat :=
  if carries sys v.field.identity y then code v.field (y / 2) j
  else
    match v.partner with
    | some p => if v.inWindow (2 * j) y then v.spatialChroma sys code j y else code p (y / 2) j
    | none => v.videoChroma sys code j y

end Sys2Proof.Machine
end

