-- ==== Sys2Proof/Machine/Scaler.lean ====
section
/-! DEFINITION. Scaling of the crop window to the 1440×1080 active picture and composition of the output raster
(R109 to R118). -/

namespace Sys2Proof.Machine

/-- The source position of an output index, in eighths of a source sample (R111). -/
def src8 (inSize outSize y : Nat) : Int :=
  ((2 * (y : Int) + 1) * inSize * 8 - 8 * outSize + outSize) / (2 * outSize)

/-- The base index of an output index (R111). -/
def baseIndex (inSize outSize y : Nat) : Int := src8 inSize outSize y / 8

/-- The phase of an output index, 0 to 7 (R111). -/
def scalePhase (inSize outSize y : Nat) : Nat := (src8 inSize outSize y % 8).toNat

/-- The window index that a tap reads: clamped to the window (R112). -/
def tapIndex (inSize : Nat) (i : Int) : Nat := (max 0 (min ((inSize : Int) - 1) i)).toNat

/-- The coefficients c1 to c4 of a phase (R113). -/
def coefficients (f : Filter) (phase : Nat) : Int × Int × Int × Int :=
  match f with
  | .linear => (0, 64 - 8 * (phase : Int), 8 * (phase : Int), 0)
  | .cubic =>
    match phase with
    | 0 => (0, 64, 0, 0)
    | 1 => (-3, 61, 6, 0)
    | 2 => (-4, 55, 15, -2)
    | 3 => (-5, 47, 25, -3)
    | 4 => (-4, 36, 36, -4)
    | 5 => (-3, 25, 47, -5)
    | 6 => (-2, 15, 55, -4)
    | _ => (0, 6, 61, -3)

/-- The value of four taps under four coefficients, before the pass's clamp (R114). -/
def filterValue (c : Int × Int × Int × Int) (s1 s2 s3 s4 : Nat) : Int :=
  (c.1 * s1 + c.2.1 * s2 + c.2.2.1 * s3 + c.2.2.2 * s4 + 32) / 64

/-- One output sample of a pass, from the window's samples, before the pass's clamp (R111 to R114). -/
def scaled (f : Filter) (inSize outSize : Nat) (sample : Nat → Nat) (y : Nat) : Int :=
  let i := baseIndex inSize outSize y
  filterValue (coefficients f (scalePhase inSize outSize y))
    (sample (tapIndex inSize (i - 1))) (sample (tapIndex inSize i))
    (sample (tapIndex inSize (i + 1))) (sample (tapIndex inSize (i + 2)))

/-- A value clamped to low to high. -/
def clampInt (low high : Nat) (v : Int) : Nat := (max (low : Int) (min (high : Int) v)).toNat

/-- The intermediate sample of output line y in a window column, clamped to 0 to 1023 (R115).  `frame` gives the
column's sample of a frame line. -/
def vertical (p : Profile) (frame : Nat → Nat) (y : Nat) : Nat :=
  clampInt 0 1023 (scaled p.filter p.cropHeight 1080 (fun t => frame (p.cropY0 + t)) y)

/-- Output luma sample x of output row y, clamped to the legal range (R116). -/
def activeLuma (sys : System) (v : View) (x y : Nat) : Nat :=
  let p := v.field.context.params
  clampInt 4 1019 (scaled p.filter p.cropWidth 1440
    (fun t => vertical p (fun line => v.frameLuma sys (p.cropX0 + t) line) y) x)

/-- Output chroma code of pair j of output row y, clamped to the legal range (R117). -/
def activeChroma (sys : System) (v : View) (code : Slot → Nat → Nat → Nat) (j y : Nat) : Nat :=
  let p := v.field.context.params
  clampInt 4 1019 (scaled p.filter (p.cropWidth / 2) 720
    (fun t => vertical p (fun line => v.frameChroma sys code (p.cropX0 / 2 + t) line) y) j)

/-- Output row y of the raster (R118): the active picture in columns 240 to 1679, the border colour of field n's copy
either side. -/
def outRow (sys : System) (v : View) (y : Nat) : OutRow :=
  let border := v.field.context.params.border
  { y := tabulate 1920 fun col =>
      if 240 ≤ col ∧ col < 1680 then BitVec.ofNat 10 (activeLuma sys v (col - 240) y) else border.y
    cb := tabulate 960 fun pair =>
      if 120 ≤ pair ∧ pair < 840 then BitVec.ofNat 10 (activeChroma sys v Slot.cb (pair - 120) y) else border.cb
    cr := tabulate 960 fun pair =>
      if 120 ≤ pair ∧ pair < 840 then BitVec.ofNat 10 (activeChroma sys v Slot.cr (pair - 120) y) else border.cr }

/-- The picture frame composed from a view (R118, R119). -/
def compose (sys : System) (v : View) : Picture where
  seq := v.field.seq
  raster := tabulate 1080 fun y => outRow sys v y

/-- A row of one colour. -/
def flatRow (c : Colour) : OutRow where
  y := tabulate 1920 fun _ => c.y
  cb := tabulate 960 fun _ => c.cb
  cr := tabulate 960 fun _ => c.cr

/-- The raster that the output sends for an output frame (R118, R120, R121, R122). -/
def OutFrame.raster : OutFrame → Raster
  | .picture p => p.raster
  | .slate colour => tabulate 1080 fun _ => flatRow colour
  | .black => tabulate 1080 fun _ => flatRow ⟨64, 512, 512⟩

end Sys2Proof.Machine
end

