-- ==== Sys2Proof/Machine/Reconstruction.lean ====
section
/-! DEFINITION. The Field Reconstructor as an engine (R89 to R91, R101, R107) and the append to the output frame queue
(R134). -/

namespace Sys2Proof.Machine

/-! ## Beginning a reconstruction (R89) -/

/-- A reconstruction begins with a view: it waits behind those begun before it, and the last-begun mark takes its
field's sequence number (R89, R90). -/
def Reconstructor.begin (r : Reconstructor) (now : Ticks) (v : View) : Reconstructor :=
  { r with
    jobs := r.jobs ++ [v]
    workStart := if r.jobs.isEmpty then now else r.workStart
    lastBegun := some v.field.seq }

/-- The view at the field end of the newest field of a ring, for the field before it (R89). -/
def viewAtEnd (ring : List Slot) (cadence : Cadence) : Option View :=
  (previousField ring).map fun n =>
    { prev2 := secondPreviousField ring.dropLast
      prev1 := previousField ring.dropLast
      field := n
      next := ring.getLast?
      cadence := some cadence }

/-- The view of the rebuild at a loss, for the newest field of a ring (R89, R107). -/
def viewAtLoss (ring : List Slot) : Option View :=
  ring.getLast?.map fun n =>
    { prev2 := secondPreviousField ring
      prev1 := previousField ring
      field := n
      next := none
      cadence := none }

/-- A view whose field has not had its reconstruction begun (R89). -/
def notBegun (mark : Option Seq) (v : Option View) : Option View :=
  v.filter fun v => decide (mark ≠ some v.field.seq)

/-- A channel with a reconstruction begun, where there is one to begin. -/
def Channel.beginRecon (ch : Channel) (now : Ticks) (v : Option View) : Channel :=
  match notBegun ch.recon.lastBegun v with
  | some v => { ch with recon := ch.recon.begin now v }
  | none => ch

/-! ## Completion (R90, R91, R107, R134) -/

/-- The field that leaves the ring at a completion: field n−2 of the view, or at the completion of a rebuild at a loss
the field itself (R90, R107). -/
def View.releases (v : View) : Option Seq :=
  match v.cadence with
  | some _ => v.prev2.map (·.seq)
  | none => some v.field.seq

/-- A ring without the field of a sequence number. -/
def releaseField (ring : List Slot) (seq : Option Seq) : List Slot :=
  ring.filter fun s => decide (some s.seq ≠ seq)

/-- A count that saturates at 65535 (R133, R139). -/
def saturate (n : Nat) : Nat := min Config.countMax (n + 1)

/-- SLIP is raised with its kind and the two counts as they now stand (R134, R135). -/
def Device.raiseSlip (c : Chan) (kind : SlipKind) (d : Device) : Device :=
  d.raise (.slip c) (.slip kind (d.chan c).sync.repeats (d.chan c).sync.drops)

/-- The queue with a frame appended, the oldest of a full queue discarded first (R134). -/
def appendFrame (queue : List Picture) (p : Picture) : List Picture :=
  (if Config.queueDepth ≤ queue.length then queue.tail else queue) ++ [p]

/-- A composed picture frame is appended to the channel's queue (R134): a discard from a full queue counts a drop and
raises SLIP, unless the channel is RUNNING and frozen; every append clears the picture-awaited flag. -/
def Device.appendPicture (c : Chan) (p : Picture) (d : Device) : Device :=
  let ch := d.chan c
  let counts := decide (Config.queueDepth ≤ ch.sync.queue.length) &&
    !(decide (ch.state = .running) && d.frozen c)
  let d := d.setChan c
    { ch with
      sync :=
        { ch.sync with
          queue := appendFrame ch.sync.queue p
          awaited := false
          drops := if counts then saturate ch.sync.drops else ch.sync.drops } }
  if counts then d.raiseSlip c .drop else d

/-- The reconstruction at work completes (R90, R91): its field leaves the ring; while the channel is RUNNING or HOLDING
the composed frame is appended, in any other state it is discarded; the work of the next one starts. -/
def Device.completeRecon (c : Chan) (d : Device) : Device :=
  let ch := d.chan c
  match ch.recon.jobs with
  | [] => d
  | v :: rest =>
    let d := d.setChan c
      { ch with
        intake := { ch.intake with ring := releaseField ch.intake.ring v.releases }
        recon := { ch.recon with jobs := rest, workStart := d.now } }
    match ch.state with
    | .running => d.appendPicture c (compose ch.settings.system v)
    | .holding => d.appendPicture c (compose ch.settings.system v)
    | .stopping => d
    | .off => d
    | .ready => d

/-! ## Stale marks and the window memory (R101, R104) -/

/-- Every field of a ring marked stale (R8, R104). -/
def markStale (ring : List Slot) : List Slot := ring.map fun s => { s with stale := true }

/-- The window memory after a field has taken its rectangle: the count falls by one, and at 0 the memory is absent
(R101). -/
def spendWindow (memory : Option WindowMark) : Option WindowMark :=
  memory.bind fun w => if w.remaining ≤ 1 then none else some { w with remaining := w.remaining - 1 }

end Sys2Proof.Machine
end

