-- ==== Sys2Proof/Machine/Settling.lean ====
section
/-! DEFINITION. The work of the long commands on one channel, wherever it falls: the plan swap (R32), the context refresh
(R48, R49), the history flush (R104), and the settling of what is pending as a channel leaves RUNNING (R155). -/

namespace Sys2Proof.Machine

/-- The swap of the operation of a tag on a channel (R32). -/
def Device.swapPlan (c : Chan) (tag : Byte) (d : Device) : Device :=
  let entries := (d.chan c).reader.staged.entries.length
  (d.modChan c fun ch => { ch with reader := ch.reader.swap }).settleOp tag c .done none (.committed entries)

/-- The refresh of the operation of a tag on a channel that is not RUNNING, or at the moment it leaves RUNNING (R48,
R49): the context reloads with the id it asked for, and the tracker is told of a change of mode (R45, R82).  DESIGN CHOICE
(log 6): a CADENCE that the change raises comes before the reply of the refresh. -/
def Device.refreshNow (c : Chan) (tag : Byte) (d : Device) : Device :=
  let before := (d.chan c).context
  let after := refreshContext d.profiles (d.chan c).settings before
  ((d.modChan c fun ch => { ch with context := after }).tellMode c before after none).settleOp tag c .done none .none

/-- The scope a flush is performed with on a channel in a cadence state (R104): a WINDOW flush is performed as CHANNEL
in FILM22 and FILM32.  The answer is the rectangle where it is performed as WINDOW. -/
def flushWindow (asked : FlushScope) (cadence : Cadence) : Option Rect :=
  match asked, cadence with
  | .window _, .film22 _ => none
  | .window _, .film32 _ => none
  | .window r, _ => some r
  | .channel, _ => none
  | .all, _ => none

/-- The flush of the operation of a tag is performed on a channel (R104).  At a field start the field being taken in
has not yet joined the ring, so it is not marked. -/
def Device.flushNow (c : Chan) (asked : FlushScope) (tag : Byte) (d : Device) : Device :=
  match flushWindow asked (d.chan c).tracker.cadence with
  | some r =>
    (d.modChan c fun ch => { ch with recon := { ch.recon with windowMemory := some ⟨r, 2⟩ } }).settleOp
      tag c .done (some .window) .none
  | none =>
    let d := d.modChan c fun ch =>
      { ch with
        intake := { ch.intake with ring := markStale ch.intake.ring }
        recon := { ch.recon with windowMemory := none } }
    (d.setTracker c (d.chan c).tracker.cleared .flush).settleOp tag c .done (some .channel) .none

/-- The commit pending on a channel, if there is one, is swapped in (R32, R34). -/
def Device.settleCommit (c : Chan) (d : Device) : Device :=
  match d.pendingOp .commit c with
  | some o => d.swapPlan c o.tag
  | none => d

/-- The refresh pending on a channel, if there is one, is carried out as on a channel not RUNNING (R49). -/
def Device.settleRefresh (c : Chan) (d : Device) : Device :=
  match d.pendingOp .refresh c with
  | some o => d.refreshNow c o.tag
  | none => d

/-- The flush pending on a channel, if there is one, is performed (R103, R105). -/
def Device.settleFlush (c : Chan) (d : Device) : Device :=
  match d.pendingOp .flush c with
  | some ⟨tag, .flush asked, _, _⟩ => d.flushNow c asked tag
  | _ => d

/-- What is pending on a channel is settled as it leaves RUNNING: commit, refresh, flush (R155). -/
def Device.leaveRunning (c : Chan) (d : Device) : Device := ((d.settleCommit c).settleRefresh c).settleFlush c

end Sys2Proof.Machine
end

