-- ==== Sys2Proof/Machine/Synchroniser.lean ====
section
/-! DEFINITION. What goes on air at an output frame start, and the stop that one completes (R135 to R138, R146). -/

namespace Sys2Proof.Machine

/-- The on-air frame shown again: a picture as composed, a border slate in the colour of the context afresh (R119, R120,
R135). -/
def OutFrame.again (context : Option Context) : OutFrame → OutFrame
  | .picture p => .picture p
  | .slate _ => .slate (borderColour context)
  | .black => .black

/-- A border slate in the colour of the channel's context (R120). -/
def Channel.slate (ch : Channel) : OutFrame := .slate (borderColour ch.context)

/-- The oldest unread frame goes on air, leaves the queue and sets picture-seen (R135, R137). -/
def Synchroniser.showNext (s : Synchroniser) (p : Picture) (rest : List Picture) : Synchroniser :=
  { s with onAir := .picture p, queue := rest, seen := true }

/-- An output frame start while RUNNING (R135, R136).  The flag says that a repeat was counted. -/
def Channel.runningFrame (ch : Channel) (frozen : Bool) : Synchroniser × Bool :=
  let again : Synchroniser := { ch.sync with onAir := ch.sync.onAir.again ch.context }
  if frozen && ch.sync.seen then (again, false)
  else
    match ch.sync.queue with
    | p :: rest => (ch.sync.showNext p rest, false)
    | [] =>
      if !ch.sync.seen then ({ ch.sync with onAir := ch.slate }, false)
      else if ch.sync.awaited then (again, false)
      else ({ again with repeats := saturate ch.sync.repeats }, true)

/-- An output frame start while HOLDING (R137). -/
def Channel.holdingFrame (ch : Channel) : Synchroniser :=
  match ch.sync.queue with
  | p :: rest => ch.sync.showNext p rest
  | [] =>
    if ch.sync.hold < ch.settings.holdLimit then
      { ch.sync with onAir := ch.sync.onAir.again ch.context, hold := ch.sync.hold + 1 }
    else { ch.sync with onAir := ch.slate }

/-- The values a stop completion gives the channel's blocks, less the tracker (R18, R36, R67, R108, R138, R146). -/
def Channel.stopped (ch : Channel) : Channel :=
  { ch with
    state := .ready
    intake :=
      { ch.intake with
        field := none
        ring := []
        discard := false
        prevIdentity := none
        timeout := none
        input := .normal }
    reader := { ch.reader with selection := none, lastCount := none, phaseMemory := none }
    dropState := false
    recon := .reset
    sync := { ch.sync with queue := [], onAir := ch.slate } }

/-- The output frame start that completes a stop (R138, R146): the blocks take their stop-completion values, CADENCE is
raised with FLUSH when the tracker's state changes, and the stop operation completes. -/
def Device.stopComplete (c : Chan) (d : Device) : Device :=
  let d := d.modChan c Channel.stopped
  let d := d.setTracker c (d.chan c).tracker.cleared .flush
  match d.pendingOp .stop c with
  | some o => d.settleOp o.tag c .done none .none
  | none => d

/-- An output frame start of a channel is handed to its Frame Synchroniser (R126, R135 to R138); the next is counted
from it. -/
def Device.outputFrame (c : Chan) (d : Device) : Device :=
  let d := d.modChan c fun ch => { ch with gen := { ch.gen with lastOut := d.now } }
  let ch := d.chan c
  match ch.state with
  | .off => d.setChan c { ch with sync := { ch.sync with onAir := .black } }
  | .ready => d.setChan c { ch with sync := { ch.sync with onAir := .black } }
  | .running =>
    let (sync, slipped) := ch.runningFrame (d.frozen c)
    let d := d.setChan c { ch with sync := sync }
    if slipped then d.raiseSlip c .repeat_ else d
  | .holding => d.setChan c { ch with sync := ch.holdingFrame }
  | .stopping => d.stopComplete c

end Sys2Proof.Machine
end

