-- ==== Sys2Proof/Machine/OutputTiming.lean ====
section
/-! DEFINITION. The Output Timing Generators and the house reference input (R124 to R131). -/

namespace Sys2Proof.Machine

/-- The source as TIMING and CHANNEL_STATUS carry it. -/
def RefSource.source : RefSource → TimingSource
  | .house => .house
  | .input => .input

/-- The source of a generator (R124): INTERNAL in FREE, the target of the acquisition in ACQUIRE. -/
def TimingState.source : TimingState → TimingSource
  | .settled .free => .internal
  | .settled (.locked s) => s.source
  | .settled (.holdover s) => s.source
  | .acquire a => a.target.source

/-- The name of a generator's state (R124). -/
def TimingState.name : TimingState → TimingName
  | .settled .free => .free
  | .settled (.locked _) => .locked
  | .settled (.holdover _) => .holdover
  | .acquire _ => .acquire

/-- A channel's generator takes a state. -/
def Device.setTiming (c : Chan) (t : TimingState) (d : Device) : Device :=
  d.modChan c fun ch => { ch with gen := { ch.gen with state := t } }

/-- A channel's generator keeps a period. -/
def Device.keepPeriod (c : Chan) (period : Option Ticks) (d : Device) : Device :=
  d.modChan c fun ch => { ch with gen := { ch.gen with kept := period } }

/-- TIMING is raised with the source and state as they stand (R131). -/
def Device.raiseTiming (c : Chan) (reason : TimingReason) (d : Device) : Device :=
  let t := (d.chan c).gen.state
  d.raise (.timing c) (.timing t.source t.name reason)

/-- A commanded acquisition's operation completes with the source and state now in force (R128, R129). -/
def Device.settleTiming (c : Chan) (reason : TimingReason) (d : Device) : Device :=
  match d.pendingOp .timing c with
  | some o =>
    let t := (d.chan c).gen.state
    d.settleOp o.tag c .done none (.timing reason t.source t.name)
  | none => d

/-- In LOCKED a reference frame start makes an output frame start when at least the half period has passed since the
last (R126). -/
def Device.guardedFrame (c : Chan) (d : Device) : Device :=
  let ch := d.chan c
  if ch.gen.lastOut + ch.settings.system.guard ≤ d.now then d.outputFrame c else d

/-- An interval that lies within tolerance of the channel's system (R124). -/
def withinBand (y : System) (interval : Option Ticks) : Bool := interval.any y.inBand

/-- The run count after a reference frame start of the target (R128). -/
def Acquisition.nextRun (a : Acquisition) (inBand : Bool) : Nat :=
  if a.seen && inBand then a.run + 1 else 1

/-- Lock is declared (R128). -/
def Device.declareLock (c : Chan) (target : RefSource) (commanded : Bool) (interval : Option Ticks) (d : Device) :
    Device :=
  let d := ((d.setTiming c (.settled (.locked target))).keepPeriod c interval).guardedFrame c
  let d := d.raiseTiming c .lock
  if commanded then d.settleTiming c .lock else d

/-- A reference frame start of a source comes to a channel's generator, `interval` after the one before it (R126, R128
to R130). -/
def Device.referenceStart (c : Chan) (src : RefSource) (interval : Option Ticks) (d : Device) : Device :=
  let ch := d.chan c
  let inBand := withinBand ch.settings.system interval
  match ch.gen.state with
  | .settled .free => d
  | .settled (.locked s) =>
    if s = src then (if inBand then d.keepPeriod c interval else d).guardedFrame c else d
  | .settled (.holdover s) =>
    if s = src then
      (d.setTiming c (.acquire ⟨false, s, .holdover s, ch.gen.kept, 1, d.now, true⟩)).raiseTiming c .reacquire
    else d
  | .acquire a =>
    let follows := decide (a.prior = .locked src)
    let a := if follows && inBand then { a with priorKept := interval } else a
    if a.target = src then
      let run := a.nextRun inBand
      if 8 ≤ run then d.declareLock c src a.commanded interval
      else
        let d := d.setTiming c (.acquire { a with run := run, seen := true })
        if follows then d.guardedFrame c else d
    else
      let d := d.setTiming c (.acquire a)
      if follows then d.guardedFrame c else d

/-- The reference loss time passes while LOCKED (R130). -/
def Device.loseReference (c : Chan) (d : Device) : Device :=
  match (d.chan c).gen.state with
  | .settled (.locked s) => ((d.setTiming c (.settled (.holdover s))).outputFrame c).raiseTiming c .referenceLost
  | _ => d

/-- The reference loss time of a LOCKED prior state passes during an acquisition (R129). -/
def Device.losePriorReference (c : Chan) (d : Device) : Device :=
  match (d.chan c).gen.state with
  | .acquire a =>
    match a.prior with
    | .locked s => (d.setTiming c (.acquire { a with prior := .holdover s })).outputFrame c
    | _ => d
  | _ => d

/-- The house family is the family other than a system's (R129). -/
def wrongFamily (y : System) (f : HouseFamily) : Bool :=
  match y, f with
  | .s625, .f5994 => true
  | .s525, .f50 => true
  | _, _ => false

/-- The reason of a failed acquisition: the first that holds (R129). -/
def failureReason (y : System) (f : HouseFamily) (a : Acquisition) : TimingReason :=
  if !a.seen then .absent
  else if decide (a.target = .house) && wrongFamily y f then .wrongFamily
  else .unstable

/-- The acquisition window ends without a lock (R129). -/
def Device.failAcquisition (c : Chan) (d : Device) : Device :=
  let ch := d.chan c
  match ch.gen.state with
  | .acquire a =>
    let reason := failureReason ch.settings.system d.houseFamily a
    let d := ((d.setTiming c (.settled a.prior)).keepPeriod c a.priorKept).raiseTiming c reason
    if a.commanded then d.settleTiming c reason else d
  | _ => d

/-- The house family after a house frame start at an interval from the one before it (R125). -/
def familyOf (interval : Option Ticks) : HouseFamily :=
  match interval with
  | none => .none
  | some i => if System.s625.inBand i then .f50 else if System.s525.inBand i then .f5994 else .none

/-- A house frame start (R125): it sets the family and comes to the generators of all four channels. -/
def Device.houseStart (d : Device) : Device :=
  let interval := d.lastHouse.map fun last => d.now - last
  let d : Device := { d with houseFamily := familyOf interval, lastHouse := some d.now }
  allChans.foldl (fun d c => d.referenceStart c .house interval) d

/-- 810,000 ticks pass without a house frame start (R125). -/
def Device.houseSilent (d : Device) : Device := { d with houseFamily := .none, lastHouse := none }

/-- A field start that takes a field in is a reference frame start of the source INPUT (R124). -/
def Device.inputStart (c : Chan) (d : Device) : Device :=
  let interval := (d.chan c).gen.lastInput.map fun last => d.now - last
  (d.modChan c fun ch => { ch with gen := { ch.gen with lastInput := some d.now } }).referenceStart c .input interval

/-- What a change of system does to a generator (R131, R132). -/
def Generator.reconfigure (g : Generator) (y : System) (now : Ticks) : Generator :=
  match g.state with
  | .settled .free => { g with kept := g.kept.map fun _ => y.period }
  | .settled (.locked s) => { g with state := .settled (.holdover s), kept := some y.period }
  | .settled (.holdover _) => { g with kept := some y.period }
  | .acquire a =>
    { g with
      kept := g.kept.map fun _ => y.period
      state := .acquire
        { a with
          run := 0
          began := now
          seen := false
          prior := match a.prior with
            | .locked s => .holdover s
            | p => p
          priorKept := match a.prior with
            | .free => a.priorKept.map fun _ => y.period
            | _ => some y.period } }

/-- CHANNEL_CONFIG changes the system of a channel to the one its configuration now holds (R131): TIMING is raised with
CONFIG when a LOCKED generator becomes HOLDOVER. -/
def Device.reconfigureTiming (c : Chan) (d : Device) : Device :=
  let ch := d.chan c
  let d' := d.setChan c { ch with gen := ch.gen.reconfigure ch.settings.system d.now }
  match ch.gen.state with
  | .settled (.locked _) => d'.raiseTiming c .config
  | _ => d'

/-- The period that output frame starts are counted in, where the generator makes them itself (R126): the nominal
period in FREE, the kept period in HOLDOVER, as in the prior state in ACQUIRE. -/
def Generator.freePeriod (g : Generator) (y : System) : Option Ticks :=
  match g.state with
  | .settled .free => some y.period
  | .settled (.locked _) => none
  | .settled (.holdover _) => some (g.kept.getD y.period)
  | .acquire a =>
    match a.prior with
    | .free => some y.period
    | .locked _ => none
    | .holdover _ => some (a.priorKept.getD y.period)

end Sys2Proof.Machine
end

