-- ==== Sys2Proof/Machine/FieldIntake.lean ====
section
/-! DEFINITION. The Field Intake: field end, loss of input, and the field start with its fixed order of work (R1 to R17,
R22, R33 to R35, R43 to R45, R83, R101). -/

namespace Sys2Proof.Machine

/-- The Field Intake takes fields only while the channel is RUNNING or HOLDING (R1). -/
def Channel.takesInput (ch : Channel) : Bool := decide (ch.state = .running) || decide (ch.state = .holding)

/-! ## Field end (R11 to R13) -/

/-- The lines of a kept field, each missing bottom line a copy of the last stored one (R11). -/
def padLines (fieldLines : Nat) (lines : List Line) : List Line :=
  match lines.getLast? with
  | some last => lines ++ List.replicate (fieldLines - lines.length) last
  | none => lines

/-- A line count that R11 keeps: at most two lines short or long. -/
def keptCount (fieldLines n : Nat) : Bool := decide (fieldLines ≤ n + 2) && decide (n ≤ fieldLines + 2)

/-- A field kept at its field end, padded, with its malformed flag (R11). -/
def finishSlot (fieldLines n : Nat) (s : Slot) : Slot :=
  { s with lines := padLines fieldLines s.lines, malformed := decide (n ≠ fieldLines) }

/-- The field end of a field that R11 keeps (R12): its records close, the dropout state follows it (R61), its signature
is taken and the tracker steps, the reconstruction of the previous accepted field begins, and the field is counted. -/
def Device.keepField (c : Chan) (f : InField) (slot : Slot) (d : Device) : Device :=
  let d := d.closeField c
  let ch := d.chan c
  let y := ch.settings.system
  let slot := finishSlot y.fieldLines f.lineCount slot
  let ring := ch.intake.ring.dropLast ++ [slot]
  let d := d.setChan c { ch with intake := { ch.intake with ring := ring }, dropState := f.concealed }
  let (tracker, reason) := ch.tracker.step slot (fieldSignature y ring slot)
  let d := d.setTracker c tracker reason
  d.modChan c fun ch =>
    let ch := ch.beginRecon d.now (viewAtEnd ring tracker.cadence)
    { ch with intake := { ch.intake with accepted := ch.intake.accepted + 1 } }

/-- The field end of a field that R11 classes as badly malformed (R13). -/
def Device.removeField (c : Chan) (d : Device) : Device :=
  (d.closeField c).modChan c fun ch =>
    { ch with intake := { ch.intake with ring := ch.intake.ring.dropLast, discard := true } }

/-- A field end, or the implied end of a field in intake (R11, R14); without a field in intake it is ignored (R1). -/
def Device.endField (c : Chan) (d : Device) : Device :=
  let ch := d.chan c
  match ch.intake.field, ch.intake.ring.getLast? with
  | some f, some slot =>
    if keptCount ch.settings.system.fieldLines f.lineCount then d.keepField c f slot else d.removeField c
  | _, _ => d

/-- A line arrives at a channel's input (R1, R10). -/
def Device.lineArrives (c : Chan) (line : Line) (d : Device) : Device :=
  if (d.chan c).takesInput then d.intakeLine c line else d

/-- A field end arrives at a channel's input (R1, R11).  The Intake no longer holds a field that a later field start has
cut off, so the end of that field is ignored (R14; which field an end belongs to is the row's operand, log 25). -/
def Device.fieldEnds (field : EndedField) (d : Device) : Device :=
  match field with
  | .latest c => if (d.chan c).takesInput then d.endField c else d
  | .cutOff _ => d

/-! ## Leaving the intake: abandonment and loss (R1, R16) -/

/-- The field in intake, if there is one, is abandoned or discarded: its records close into the log and it leaves the
ring (R1, R16, R60). -/
def Device.dropField (c : Chan) (d : Device) : Device :=
  match (d.chan c).intake.field with
  | some _ =>
    (d.closeField c).modChan c fun ch => { ch with intake := { ch.intake with ring := ch.intake.ring.dropLast } }
  | none => d

/-- The reasons a loss can have (R16). -/
inductive LossReason where
  | absent
  | wrongStandard
  deriving DecidableEq, Repr

/-- The input condition that a loss sets (R16, step 6). -/
def LossReason.condition : LossReason → InputCond
  | .absent => .absent
  | .wrongStandard => .wrongStandard

/-- The reason of INPUT at a loss (R16, step 7). -/
def LossReason.reason : LossReason → InputReason
  | .absent => .absent
  | .wrongStandard => .wrongStandard

/-- Steps 2 and 3 of R16: the last kept field is rebuilt if it has had no reconstruction begun, and every other field
leaves the ring. -/
def Channel.rebuildAtLoss (ch : Channel) (now : Ticks) : Channel :=
  match notBegun ch.recon.lastBegun (viewAtLoss ch.intake.ring) with
  | some v =>
    { ch with
      recon := ch.recon.begin now v
      intake := { ch.intake with ring := [{ v.field with stale := true }] } }
  | none => { ch with intake := { ch.intake with ring := [] } }

/-- A loss on a RUNNING channel, for its reason (R16), with the settling of what is pending as the channel leaves
RUNNING (R155). -/
def Device.declareLoss (c : Chan) (why : LossReason) (d : Device) : Device :=
  let d := (d.dropField c).modChan c fun ch => ch.rebuildAtLoss d.now
  let d := d.setTracker c (d.chan c).tracker.cleared .loss
  let d := d.modChan c fun ch =>
    { ch with
      state := .holding
      intake := { ch.intake with prevIdentity := none, discard := false, timeout := none, input := why.condition }
      sync := { ch.sync with hold := 0 } }
  (d.raise (.input c) (.input .holding why.reason)).leaveRunning c

/-- The field timeout expires while the channel is RUNNING and it is armed (R15). -/
def Device.timeoutExpires (c : Chan) (d : Device) : Device :=
  if (d.chan c).state = .running ∧ (d.chan c).intake.timeout.isSome then d.declareLoss c .absent else d

/-! ## Field start (R5, R6) -/

/-- The edit reasons of R7 in the order of its table, the first that holds. -/
def editReason (discard jump parity plan cue : Bool) : Option EditReason :=
  if discard then some .fieldDiscarded
  else if jump then some .tcJump
  else if parity then some .parityRepeat
  else if plan then some .planMark
  else if cue then some .cueMark
  else none

/-- Making room for a field being taken in: in a ring of five the oldest leaves (R4, R5). -/
def makeRoom (ring : List Slot) : List Slot := if Config.ringDepth ≤ ring.length then ring.tail else ring

/-- A field is taken in (R5): the sequence counter advances, the ring has room, the field timeout is armed afresh
(R15). -/
def Intake.takeRoom (i : Intake) (deadline : Ticks) : Intake :=
  { i with nextSeq := i.nextSeq + 1, ring := makeRoom i.ring, timeout := some deadline }

/-- Steps 4 and 5 of a field start (R43, R24) with what the reload hands on (R45): the context reloads where R43 asks
for it, a pending refresh ends, the forced phase is computed and kept in the phase memory, and the tracker is told of a
change of mode.  DESIGN CHOICE (log 6): the spec does not order the reply of the refresh against the CADENCE that a change
of mode raises; here the reply enters first, at step 4, since R82's phase is known at step 5. -/
def Device.contextStep (c : Chan) (count : Option Count) (d : Device) : Device :=
  let ch := d.chan c
  let before := ch.context
  let requested := requestedId ch.settings ch.reader.selection
  let pending := d.pendingOp .refresh c
  let after :=
    if reloads before requested pending.isSome then some (reloadContext d.profiles ch.settings requested) else before
  let d := d.setChan c { ch with context := after }
  let d := match pending with
    | some o => d.settleOp o.tag c .done none .none
    | none => d
  let phase := after.bind fun x => forcedPhase x.params count ch.reader.selection ch.reader.phaseMemory
  let d := d.modChan c fun ch => { ch with reader := { ch.reader with phaseMemory := phase } }
  d.tellMode c before after phase

/-- Step 6 of a field start (R7, R8): an edit marks the fields of the ring stale, clears the discard flag, is told to
the tracker (R83), and raises EDIT with the new field's count.  DESIGN CHOICE (log 6): no rule orders EDIT against the
CADENCE that the tracker's change of state raises; here CADENCE comes first, since R8 names the tracker before EDIT. -/
def Device.editStep (c : Chan) (reason : Option EditReason) (count : Option Count) (d : Device) : Device :=
  match reason with
  | none => d
  | some r =>
    let d := d.modChan c fun ch =>
      { ch with intake := { ch.intake with ring := markStale ch.intake.ring, discard := false } }
    (d.setTracker c (d.chan c).tracker.cleared .edit).raise (.edit c) (.edit r (count.map (·.count)))

/-- The slot of the field being taken in (R3, step 8 of R6). -/
def newSlot (seq : Seq) (identity : Identity) (count : Option Count) (memory : Option WindowMark)
    (phase : Option ForcedPhase) (context : Context) : Slot where
  seq := seq
  identity := identity
  fieldCount := count.map (·.count)
  stale := false
  window := memory
  malformed := false
  forcedPhase := phase
  context := context
  lines := []

/-- Steps 8 and 9 of a field start (R6, R9, R53, R101): the slot joins the ring, the window memory is spent, the
edit-mark latch is cleared, the identity is recorded, and the concealment source is chosen. -/
def Channel.enterField (ch : Channel) (seq : Seq) (identity : Identity) (count : Option Count) : Channel :=
  match ch.context with
  | none => ch
  | some context =>
    let slot := newSlot seq identity count ch.recon.windowMemory ch.reader.phaseMemory context
    let ring := ch.intake.ring ++ [slot]
    { ch with
      intake :=
        { ch.intake with
          ring := ring
          editMark := false
          prevIdentity := some identity
          field := some (.begin (concealSourceOf slot (secondPreviousField ring))) }
      recon := { ch.recon with windowMemory := spendWindow ch.recon.windowMemory } }

/-- A field start that takes its field in (R5, R6), the steps of R6 in order, and then the reference frame start that it
is for the source INPUT (R124; the order is log 7's). -/
def Device.takeIn (c : Chan) (label : Label) (d : Device) : Device :=
  let seq := (d.chan c).intake.nextSeq
  let d := d.modChan c fun ch =>
    { ch with intake := ch.intake.takeRoom (d.now + ch.settings.system.lossTime) }
  -- step 1: timecode, and the jump test (R19 to R22)
  let count := labelCount (d.chan c).settings label
  let jump := jumpTest (d.chan c).reader.lastCount count
  let d := d.modChan c fun ch => { ch with reader := { ch.reader with lastCount := count } }
  -- step 2: swap of a pending plan commit (R32)
  let d := d.settleCommit c
  -- step 3: lookup and plan mark (R33, R35)
  let previous := (d.chan c).reader.selection
  let selected := (d.chan c).reader.lookup count
  let d := d.modChan c fun ch => { ch with reader := { ch.reader with selection := selected } }
  -- steps 4 and 5: context and forced phase
  let d := d.contextStep c count
  -- step 6: edit
  let i := (d.chan c).intake
  let reason := editReason i.discard jump (decide (i.prevIdentity = some label.identity))
    (planMark count previous selected) i.editMark
  let d := d.editStep c reason count
  -- step 7: pending flush (R103)
  let d := d.settleFlush c
  -- steps 8 and 9
  let d := d.modChan c fun ch => ch.enterField seq label.identity count
  d.inputStart c

/-- The return from HOLDING (R17, R137): RUNNING, NORMAL, the hold count 0, picture-awaited set, INPUT raised. -/
def Device.endHolding (c : Chan) (d : Device) : Device :=
  let d := d.modChan c fun ch =>
    { ch with
      state := .running
      intake := { ch.intake with input := .normal }
      sync := { ch.sync with hold := 0, awaited := true } }
  d.raise (.input c) (.input .running .restored)

/-- A wrong standard while HOLDING (R5): it changes an ABSENT condition to WRONG_STANDARD and raises INPUT. -/
def Device.wrongWhileHolding (c : Chan) (d : Device) : Device :=
  if (d.chan c).intake.input = .absent then
    (d.modChan c fun ch => { ch with intake := { ch.intake with input := .wrongStandard } }).raise
      (.input c) (.input .holding .wrongStandard)
  else d

/-- A field start (R1, R5, R14, R17). -/
def Device.fieldStart (c : Chan) (label : Label) (d : Device) : Device :=
  match (d.chan c).state with
  | .running =>
    let d := d.endField c
    if label.system = (d.chan c).settings.system then d.takeIn c label else d.declareLoss c .wrongStandard
  | .holding =>
    if label.system = (d.chan c).settings.system then (d.endHolding c).takeIn c label else d.wrongWhileHolding c
  | .off => d
  | .ready => d
  | .stopping => d

end Sys2Proof.Machine
end

