-- ==== Sys2Proof/Machine/Controller.lean ====
section
/-! DEFINITION. The Channel Controller: what CHANNEL_CONFIG, CHANNEL_START, CHANNEL_STOP and CHANNEL_RESET do to a channel,
and what CHANNEL_STATUS reports of it (R141 to R151, R156). -/

namespace Sys2Proof.Machine

/-- A commanded configuration as it is stored: a hold limit above 250 becomes 250 (R142). -/
def storedSettings (system : System) (defaultProfile holdLimit : Nat) (timecodeUse : Bool) : Settings :=
  ⟨system, defaultProfile, min Config.holdMax holdLimit, timecodeUse⟩

/-- CHANNEL_CONFIG that passed its checks (R142, R143): the four items are replaced, the channel is READY, and a change
of system reaches the output timing (R131). -/
def Device.configure (c : Chan) (s : Settings) (d : Device) : Device :=
  let changed := decide ((d.chan c).settings.system ≠ s.system)
  let d := d.modChan c fun ch => { ch with state := .ready, settings := s }
  if changed then d.reconfigureTiming c else d

/-- A channel at CHANNEL_START (R144), less its tracker. -/
def Channel.started (ch : Channel) (now : Ticks) : Channel :=
  { ch with
    state := .running
    intake := { Intake.reset with timeout := some (now + ch.settings.system.lossTime) }
    reader := { ch.reader with selection := none, lastCount := none, phaseMemory := none }
    context := none
    dropState := false
    recon := .reset
    sync := { Synchroniser.reset with onAir := ch.sync.onAir, freeze := ch.sync.freeze } }

/-- CHANNEL_START that passed its checks (R144): the tracker goes to SEEK, and CADENCE is raised with START when its
state name changes (R85). -/
def Device.startChannel (c : Chan) (d : Device) : Device :=
  (d.modChan c fun ch => ch.started d.now).setTracker c .reset .start

/-- CHANNEL_STOP that passed its checks (R145), once its operation has a slot: STOPPING, the field in intake abandoned,
the timeout disarmed, and on a channel that was RUNNING the pending operations settled. -/
def Device.stopChannel (c : Chan) (d : Device) : Device :=
  let running := decide ((d.chan c).state = .running)
  let d := (d.modChan c fun ch => { ch with state := .stopping }).dropField c
  let d := d.modChan c fun ch => { ch with intake := { ch.intake with timeout := none } }
  if running then d.leaveRunning c else d

/-- Every operation pending on a channel ends for it with ABORTED, in the order the operations were taken (R149, R156;
the order among several replies is log 6's). -/
def Device.abortOps (c : Chan) (d : Device) : Device :=
  (d.ops.filter (Operation.pendingOn c)).foldl (fun d o => d.settleOp o.tag c .aborted none .none) d

/-- The notice sources of one channel (R148, R175). -/
def channelSources (c : Chan) : List Source :=
  [.input c, .timing c, .slip c, .edit c, .cadence c, .burst c]

/-- CHANNEL_RESET that passed its checks (R148, R149): the channel's blocks take their reset values, its operations end
with ABORTED, and its notice sources are lowered.  Its output frame starts are counted from the last one made
(R131).  DESIGN CHOICE (log 29): a frame that is being sent becomes black at the reset itself, since R121, R140 and R148
put black on air from it, where R122 has a change of channel state act at the next output frame start. -/
def Device.resetChannel (c : Chan) (d : Device) : Device :=
  let d := d.modChan c fun ch => Channel.reset ch.gen.lastOut
  let d := (channelSources c).foldl (fun d src => d.lower src) d
  d.abortOps c

/-- An optional number: a presence byte, and value bytes that are zero when it is absent (R168). -/
def optional (bytes : Nat → List Byte) (n : Option Nat) : List Byte := onOff n.isSome :: bytes (n.getD 0)

/-- The pending flags of a channel: bit 0 commit, bit 1 refresh, bit 2 flush, bit 3 stop (R150, R168). -/
def Device.pendingByte (d : Device) (c : Chan) : List Byte :=
  byte1 ((if d.isPending .commit c then 1 else 0) + (if d.isPending .refresh c then 2 else 0) +
    (if d.isPending .flush c then 4 else 0) + (if d.isPending .stop c then 8 else 0))

/-- The configuration as CHANNEL_CONFIG and CHANNEL_STATUS answer it (R142, R168). -/
def Settings.bytes (s : Settings) : List Byte :=
  [systemCode s.system] ++ byte1 s.defaultProfile ++ byte2 s.holdLimit ++ [onOff s.timecodeUse]

/-- The context as CHANNEL_STATUS answers it (R42, R168). -/
def contextBytes (x : Option Context) : List Byte :=
  match x with
  | some x => [1] ++ byte1 x.requested ++ byte1 x.source
  | none => [0, 0, 0]

/-- The result fields of CHANNEL_STATUS (R150, R168), 34 bytes. -/
def Device.statusBytes (d : Device) (c : Chan) : List Byte :=
  let ch := d.chan c
  [ch.state.code] ++ ch.settings.bytes ++ [ch.intake.input.code] ++
  [ch.gen.state.source.code, ch.gen.state.name.code] ++
  [ch.tracker.cadence.code, ch.tracker.cadence.phaseCode] ++
  contextBytes ch.context ++
  optional byte1 (Selection.indexOf ch.reader.selection) ++
  optional byte4 (ch.reader.lastCount.map (·.count)) ++
  [onOff ch.sync.freeze, onOff (d.cueFreeze c), onOff (d.frozen c)] ++
  byte2 ch.sync.repeats ++ byte2 ch.sync.drops ++
  byte4 ch.intake.accepted.toNat ++ byte1 ch.intake.ring.length ++ d.pendingByte c

end Sys2Proof.Machine
end

