-- ==== Sys2Proof/Machine/Startup.lean ====
section
/-! DEFINITION. The device reset and start-up (R181, R182). -/

namespace Sys2Proof.Machine

/-- The line rate in baud that the LINK_RATE straps give (R181). -/
def strapRate (strap1 strap0 : Bool) : Nat :=
  match strap1, strap0 with
  | false, false => 115200
  | false, true => 460800
  | true, false => 921600
  | true, true => 2000000

/-- A device reset begins (R181): every block is held at its reset state (the table of section 12.5).  The clock, the
levels at the pins, and the line rate and cause of the reset before stay until this one ends. -/
def Device.beginReset (d : Device) : Device :=
  { Device.reset with
    now := d.now
    phase := .held
    supplyGood := d.supplyGood
    pinAsserted := d.pinAsserted
    strap1 := d.strap1
    strap0 := d.strap0
    lineRate := d.lineRate
    cause := d.cause
    chans := .replicate 4 (Channel.reset d.now)
    cueOutside := d.cueOutside }

/-- A device reset ends (R181): the straps are sampled, the cause is recorded, and the STARTING period begins.  The
outputs send black frames from this moment (R182), counted from it. -/
def Device.endReset (cause : ResetCause) (d : Device) : Device :=
  { d with
    phase := .starting d.now
    lineRate := strapRate d.strap1 d.strap0
    cause := cause
    chans := .replicate 4 (Channel.reset d.now) }

/-- The command reset, which ends at once (R163, R181). -/
def Device.commandReset (d : Device) : Device := d.beginReset.endReset .command

/-- The supply is not good: at power-up, and at a failure of the supply (R181). -/
def Device.supplyFails (d : Device) : Device := { d.beginReset with supplyGood := false }

/-- The supply becomes good (R181).  While the reset pin is asserted the reset is held on (log 8). -/
def Device.supplyReturns (strap1 strap0 : Bool) (d : Device) : Device :=
  if d.supplyGood then d
  else
    let d : Device := { d with supplyGood := true, strap1 := strap1, strap0 := strap0 }
    if d.pinAsserted then d else d.endReset .power

/-- The reset pin is asserted (R181). -/
def Device.pinFalls (d : Device) : Device := { d.beginReset with pinAsserted := true }

/-- The reset pin is released (R181).  While the supply is not good the reset is held on (log 8). -/
def Device.pinRises (strap1 strap0 : Bool) (d : Device) : Device :=
  if d.pinAsserted then
    let d : Device := { d with pinAsserted := false, strap1 := strap1, strap0 := strap0 }
    if d.supplyGood then d.endReset .pin else d
  else d

/-- The STARTING period ends: the hello message begins (R165, R182). -/
def Device.startingEnds (d : Device) : Device :=
  match d.phase with
  | .starting _ => { d with phase := .operating, uplink := .sending (helloFrame d.cause) d.now }
  | .held => d
  | .operating => d

/-- Whether the blocks run: not while a reset holds them (R181). -/
def Device.released (d : Device) : Bool :=
  match d.phase with
  | .held => false
  | .starting _ => true
  | .operating => true

end Sys2Proof.Machine
end

