-- ==== Sys2Proof/Machine/ChannelCommands.lean ====
section
/-! DEFINITION. The device and channel commands as the executor takes them (R142, R144, R145, R148, R150, R151, R166):
length (R163), the command's own checks, the tag check (R153), the effect and the reply. -/

namespace Sys2Proof.Machine

/-- A short command that passed its own checks (R153): the tag check, then its effect. -/
def Device.unlessTagged (tag kind : Byte) (act : Device → Device) (d : Device) : Device :=
  if d.tagInUse tag then d.answer tag kind .tagInUse [] else act d

/-- A command that names a channel in a payload of one byte (R163, R168): the length check and the range check of the
channel number, then the rest of its rule. -/
def Device.withChannel (tag kind : Byte) (p : List Byte) (act : Chan → Device → Device) (d : Device) : Device :=
  if p.length ≠ 1 then d.answer tag kind .length []
  else
    match chanOf (byteAt p 0) with
    | none => d.answer tag kind .range []
    | some c => act c d

/-- The result fields of IDENTIFY (R166). -/
def identityBytes : List Byte :=
  [0x52, 0x69, 0x73, 0x74, 0x61, 0x6D, 0x6F, 0x00] ++ [0x4F, 0x46, 0x52, 0x2D, 0x34, 0x34, 0x30, 0x00] ++
  [Config.revision] ++ byte1 4 ++ byte1 31 ++ byte1 Config.planDepth ++ byte2 Config.logDepth ++
  byte1 Config.operationSlots ++ byte1 8

/-- IDENTIFY (R166). -/
def Device.takeIdentify (tag : Byte) (p : List Byte) (d : Device) : Device :=
  if p.length ≠ 0 then d.answer tag Kind.identify .length []
  else d.unlessTagged tag Kind.identify fun d => d.answer tag Kind.identify .ok identityBytes

/-- DEVICE_RESET: carried out whatever its tag and payload, with no reply (R163, R181). -/
def Device.takeDeviceReset (_tag : Byte) (_p : List Byte) (d : Device) : Device := d.commandReset

/-- CHANNEL_CONFIG (R142). -/
def Device.takeChannelConfig (tag : Byte) (p : List Byte) (d : Device) : Device :=
  if p.length ≠ 6 then d.answer tag Kind.channelConfig .length []
  else
    match chanOf (byteAt p 0), systemOf (byteAt p 1), onOffOf (byteAt p 5) with
    | some c, some system, some timecodeUse =>
      if 31 < byteAt p 2 then d.answer tag Kind.channelConfig .range []
      else if (d.chan c).state ≠ .off ∧ (d.chan c).state ≠ .ready then d.answer tag Kind.channelConfig .state []
      else
        let s := storedSettings system (byteAt p 2) (wordAt p 3) timecodeUse
        d.unlessTagged tag Kind.channelConfig fun d =>
          (d.configure c s).answer tag Kind.channelConfig .ok s.bytes
    | _, _, _ => d.answer tag Kind.channelConfig .range []

/-- CHANNEL_START (R144). -/
def Device.takeChannelStart (tag : Byte) (p : List Byte) (d : Device) : Device :=
  d.withChannel tag Kind.channelStart p fun c d =>
    if (d.chan c).state ≠ .ready then d.answer tag Kind.channelStart .state []
    else d.unlessTagged tag Kind.channelStart fun d => (d.startChannel c).answer tag Kind.channelStart .ok []

/-- A long command at the checks of the operations table (R153): the tag, then the slots. -/
def Device.unlessFull (tag kind : Byte) (act : Device → Device) (d : Device) : Device :=
  if d.tagInUse tag then d.answer tag kind .tagInUse []
  else if d.slotsFull then d.answer tag kind .busy []
  else act d

/-- CHANNEL_STOP (R145). -/
def Device.takeChannelStop (tag : Byte) (p : List Byte) (d : Device) : Device :=
  d.withChannel tag Kind.channelStop p fun c d =>
    if !(d.chan c).takesInput then d.answer tag Kind.channelStop .state []
    else d.unlessFull tag Kind.channelStop fun d => (d.takeSlot tag .stop [c]).stopChannel c

/-- CHANNEL_RESET (R148, R149). -/
def Device.takeChannelReset (tag : Byte) (p : List Byte) (d : Device) : Device :=
  d.withChannel tag Kind.channelReset p fun c d =>
    d.unlessTagged tag Kind.channelReset fun d => (d.resetChannel c).answer tag Kind.channelReset .ok []

/-- CHANNEL_STATUS (R150). -/
def Device.takeChannelStatus (tag : Byte) (p : List Byte) (d : Device) : Device :=
  d.withChannel tag Kind.channelStatus p fun c d =>
    d.unlessTagged tag Kind.channelStatus fun d => d.answer tag Kind.channelStatus .ok (d.statusBytes c)

/-- The command freeze flag of a channel (R151). -/
def Device.setFreeze (c : Chan) (on : Bool) (d : Device) : Device :=
  d.modChan c fun ch => { ch with sync := { ch.sync with freeze := on } }

/-- CHANNEL_FREEZE (R151). -/
def Device.takeChannelFreeze (tag : Byte) (p : List Byte) (d : Device) : Device :=
  if p.length ≠ 2 then d.answer tag Kind.channelFreeze .length []
  else
    match chanOf (byteAt p 0), onOffOf (byteAt p 1) with
    | some c, some on =>
      d.unlessTagged tag Kind.channelFreeze fun d =>
        let d := d.setFreeze c on
        d.answer tag Kind.channelFreeze .ok [onOff (d.frozen c)]
    | _, _ => d.answer tag Kind.channelFreeze .range []

end Sys2Proof.Machine
end

