-- ==== Sys2Proof/Machine/TableCommands.lean ====
section
/-! DEFINITION. The commands on profiles, plans and the dropout log as the executor takes them (R28 to R31, R39 to R41,
R64 to R66). -/

namespace Sys2Proof.Machine

/-! ## Profiles -/

/-- The profile table with a slot, 1 to 31, filled or emptied (R37). -/
def setSlot (slots : Vector (Option Profile) 31) (slot : Nat) (p : Option Profile) : Vector (Option Profile) 31 :=
  slots.setIfInBounds (slot - 1) p

/-- PROFILE_WRITE (R38, R39). -/
def Device.takeProfileWrite (tag : Byte) (p : List Byte) (d : Device) : Device :=
  if p.length ≠ 27 then d.answer tag Kind.profileWrite .length []
  else if byteAt p 0 = 0 ∨ 31 < byteAt p 0 then d.answer tag Kind.profileWrite .range []
  else
    match profileAt p 1 with
    | none => d.answer tag Kind.profileWrite .range []
    | some profile =>
      d.unlessTagged tag Kind.profileWrite fun d =>
        ({ d with profiles := setSlot d.profiles (byteAt p 0) (some profile) } : Device).answer
          tag Kind.profileWrite .ok []

/-- The result fields of PROFILE_READ (R40, R168). -/
def slotBytes (slot : Nat) (p : Option Profile) : List Byte :=
  match p with
  | some p => byte1 slot ++ [1] ++ p.bytes
  | none => byte1 slot ++ [0]

/-- PROFILE_READ (R40). -/
def Device.takeProfileRead (tag : Byte) (p : List Byte) (d : Device) : Device :=
  if p.length ≠ 1 then d.answer tag Kind.profileRead .length []
  else if 31 < byteAt p 0 then d.answer tag Kind.profileRead .range []
  else d.unlessTagged tag Kind.profileRead fun d =>
    d.answer tag Kind.profileRead .ok (slotBytes (byteAt p 0) (profileAtPlace d.profiles (byteAt p 0)))

/-- PROFILE_ERASE (R41). -/
def Device.takeProfileErase (tag : Byte) (p : List Byte) (d : Device) : Device :=
  if p.length ≠ 1 then d.answer tag Kind.profileErase .length []
  else if byteAt p 0 = 0 ∨ 31 < byteAt p 0 then d.answer tag Kind.profileErase .range []
  else d.unlessTagged tag Kind.profileErase fun d =>
    ({ d with profiles := setSlot d.profiles (byteAt p 0) none } : Device).answer tag Kind.profileErase .ok []

/-! ## Plans -/

/-- A channel's staged plan replaced. -/
def Device.setStaged (c : Chan) (plan : Plan) (d : Device) : Device :=
  d.modChan c fun ch => { ch with reader := { ch.reader with staged := plan } }

/-- PLAN_STAGE_CLEAR (R29). -/
def Device.takePlanStageClear (tag : Byte) (p : List Byte) (d : Device) : Device :=
  d.withChannel tag Kind.planStageClear p fun c d =>
    if d.isPending .commit c then d.answer tag Kind.planStageClear .busy []
    else d.unlessTagged tag Kind.planStageClear fun d =>
      (d.setStaged c .empty).answer tag Kind.planStageClear .ok []

/-- PLAN_STAGE_ADD (R27, R28).  A command whose first entry fails its check is refused on its own checks; any other is
past them, and the tag check stands before its first entry is appended (R153).  The count of entries added goes with a
refusal by the command's own rule too (R168; log 9). -/
def Device.takePlanStageAdd (tag : Byte) (p : List Byte) (d : Device) : Device :=
  if !stageAddLength p.length then d.answer tag Kind.planStageAdd .length []
  else
    match chanOf (byteAt p 0) with
    | none => d.answer tag Kind.planStageAdd .range (byte1 0)
    | some c =>
      if d.isPending .commit c then d.answer tag Kind.planStageAdd .busy (byte1 0)
      else
        let (plan, added, status) :=
          stageEntries (d.chan c).settings.system (d.chan c).reader.staged 0 (entriesOf p)
        if added = 0 then d.answer tag Kind.planStageAdd status (byte1 0)
        else d.unlessTagged tag Kind.planStageAdd fun d =>
          (d.setStaged c plan).answer tag Kind.planStageAdd status (byte1 added)

/-- PLAN_COMMIT (R31): on a RUNNING channel the commit becomes pending, on any other the swap is made at once. -/
def Device.takePlanCommit (tag : Byte) (p : List Byte) (d : Device) : Device :=
  d.withChannel tag Kind.planCommit p fun c d =>
    if d.isPending .commit c then d.answer tag Kind.planCommit .busy []
    else d.unlessFull tag Kind.planCommit fun d =>
      let d := d.takeSlot tag .commit [c]
      if (d.chan c).state = .running then d else d.swapPlan c tag

/-- The plan that PLAN_READ's selector names (R30, R168). -/
def Reader.planOf (r : Reader) : Nat → Option Plan
  | 0 => some r.committed
  | 1 => some r.staged
  | _ => none

/-- The result fields of PLAN_READ from a starting index (R30, R168). -/
def planBytes (plan : Plan) (pending : Bool) (start : Nat) : List Byte :=
  let served := (plan.entries.drop start).take 12
  byte1 plan.entries.length ++ [baseCode plan.base, onOff pending] ++ byte1 served.length ++
  served.flatMap PlanEntry.bytes

/-- PLAN_READ (R30). -/
def Device.takePlanRead (tag : Byte) (p : List Byte) (d : Device) : Device :=
  if p.length ≠ 3 then d.answer tag Kind.planRead .length []
  else
    match chanOf (byteAt p 0) with
    | none => d.answer tag Kind.planRead .range []
    | some c =>
      match (d.chan c).reader.planOf (byteAt p 1) with
      | none => d.answer tag Kind.planRead .range []
      | some plan =>
        if plan.entries.length < byteAt p 2 then d.answer tag Kind.planRead .range []
        else d.unlessTagged tag Kind.planRead fun d =>
          d.answer tag Kind.planRead .ok (planBytes plan (d.isPending .commit c) (byteAt p 2))

/-! ## The dropout log -/

/-- The number of records that DROPLOG_READ serves (R64). -/
def servedCount (asked held : Nat) : Nat := min asked (min 12 held)

/-- DROPLOG_READ (R64). -/
def Device.takeDroplogRead (tag : Byte) (p : List Byte) (d : Device) : Device :=
  if p.length ≠ 1 then d.answer tag Kind.droplogRead .length []
  else if byteAt p 0 = 0 then d.answer tag Kind.droplogRead .range []
  else d.unlessTagged tag Kind.droplogRead fun d =>
    let served := servedCount (byteAt p 0) d.dropLog.length
    let left := d.dropLog.drop served
    ({ d with dropLog := left, overflow := d.overflow && !left.isEmpty } : Device).answer tag Kind.droplogRead .ok
      (byte1 served ++ byte2 left.length ++ [onOff d.overflow] ++ (d.dropLog.take served).flatMap DropRecord.bytes)

/-- DROPLOG_CLEAR (R65). -/
def Device.takeDroplogClear (tag : Byte) (p : List Byte) (d : Device) : Device :=
  if p.length ≠ 0 then d.answer tag Kind.droplogClear .length []
  else d.unlessTagged tag Kind.droplogClear fun d =>
    ({ d with dropLog := [], overflow := false } : Device).answer tag Kind.droplogClear .ok
      (byte2 d.dropLog.length ++ [onOff d.overflow])

/-- DROPLOG_WATERMARK (R66). -/
def Device.takeDroplogWatermark (tag : Byte) (p : List Byte) (d : Device) : Device :=
  if p.length ≠ 2 then d.answer tag Kind.droplogWatermark .length []
  else if wordAt p 0 = 0 then d.answer tag Kind.droplogWatermark .range []
  else d.unlessTagged tag Kind.droplogWatermark fun d =>
    let mark := min Config.logDepth (wordAt p 0)
    ({ d with watermark := mark } : Device).answer tag Kind.droplogWatermark .ok (byte2 mark)

end Sys2Proof.Machine
end

