-- ==== Sys2Proof/Machine/LongCommands.lean ====
section
/-! DEFINITION. CONTEXT_REFRESH, HISTORY_FLUSH and TIMING_SELECT as the executor takes them (R47, R48, R102, R103,
R127). -/

namespace Sys2Proof.Machine

/-- A channel's context is not empty and has a requested id or source id (R48). -/
def Channel.uses (ch : Channel) (id : Nat) : Bool :=
  ch.context.any fun x => decide (x.requested = id) || decide (x.source = id)

/-- The scope performed and the target set of a context refresh, formed when it is taken (R48). -/
def Device.refreshTargets (d : Device) : RefreshAsk → RefreshScope × List Chan
  | .channel c => (.channel, [c])
  | .profile id =>
    if allChans.any fun c => d.isPending .commit c then (.all, allChans)
    else (.profile, allChans.filter fun c => (d.chan c).uses id)
  | .all => (.all, allChans)

/-- The targets of a long command on which its work is done at once: those not RUNNING (R48, R103). -/
def Device.atOnce (d : Device) (targets : List Chan) : List Chan :=
  targets.filter fun c => decide ((d.chan c).state ≠ .running)

/-- CONTEXT_REFRESH (R47, R48).  A refresh with no target completes when taken. -/
def Device.takeContextRefresh (tag : Byte) (p : List Byte) (d : Device) : Device :=
  if p.length ≠ 2 then d.answer tag Kind.contextRefresh .length []
  else
    match refreshAskOf (byteAt p 0) (byteAt p 1) with
    | none => d.answer tag Kind.contextRefresh .range []
    | some ask =>
      d.unlessFull tag Kind.contextRefresh fun d =>
        let (scope, targets) := d.refreshTargets ask
        if targets.any fun c => d.isPending .refresh c then d.answer tag Kind.contextRefresh .busy []
        else
          let d := d.takeSlot tag (.refresh scope) targets
          ((d.atOnce targets).foldl (fun d c => d.refreshNow c tag) d).completeOp tag

/-- The rectangle of a HISTORY_FLUSH payload (R168). -/
def flushRect (p : List Byte) : Rect := ⟨wordAt p 2, wordAt p 4, wordAt p 6, wordAt p 8⟩

/-- The scope and target set that a HISTORY_FLUSH asks (R102, check 1; R168's scope enumeration). -/
def Device.flushAsk (d : Device) (p : List Byte) : Option (FlushScope × List Chan) :=
  match byteAt p 0 with
  | 0 => (chanOf (byteAt p 1)).map fun c => (.channel, [c])
  | 2 => some (.all, allChans)
  | 3 =>
    match chanOf (byteAt p 1) with
    | none => none
    | some c =>
      if (flushRect p).acceptable (d.chan c).settings.system.frameLines then some (.window (flushRect p), [c])
      else none
  | _ => none

/-- HISTORY_FLUSH (R102, R103). -/
def Device.takeHistoryFlush (tag : Byte) (p : List Byte) (d : Device) : Device :=
  if p.length ≠ 10 then d.answer tag Kind.historyFlush .length []
  else
    match d.flushAsk p with
    | none => d.answer tag Kind.historyFlush .range []
    | some (asked, targets) =>
      d.unlessFull tag Kind.historyFlush fun d =>
        if targets.any fun c => d.isPending .flush c then d.answer tag Kind.historyFlush .busy []
        else
          let d := d.takeSlot tag (.flush asked) targets
          (d.atOnce targets).foldl (fun d c => d.flushNow c asked tag) d

/-- INTERNAL is selected (R127): FREE at once, TIMING raised when the state changes. -/
def Device.selectInternal (c : Chan) (d : Device) : Device :=
  match (d.chan c).gen.state with
  | .settled .free => d
  | _ => (d.setTiming c (.settled .free)).raiseTiming c .command

/-- A commanded acquisition begins (R127). -/
def Device.beginAcquisition (c : Chan) (target : RefSource) (prior : Settled) (d : Device) : Device :=
  (d.setTiming c (.acquire ⟨true, target, prior, (d.chan c).gen.kept, 0, d.now, false⟩)).raiseTiming c .command

/-- TIMING_SELECT (R127). -/
def Device.takeTimingSelect (tag : Byte) (p : List Byte) (d : Device) : Device :=
  if p.length ≠ 2 then d.answer tag Kind.timingSelect .length []
  else
    match chanOf (byteAt p 0), timingSourceOf (byteAt p 1) with
    | some c, some source =>
      d.unlessFull tag Kind.timingSelect fun d =>
        match (d.chan c).gen.state with
        | .acquire _ => d.answer tag Kind.timingSelect .busy []
        | .settled prior =>
          let d := d.takeSlot tag .timing [c]
          match source with
          | .internal => (d.selectInternal c).settleTiming c .command
          | .house => d.beginAcquisition c .house prior
          | .input => d.beginAcquisition c .input prior
    | _, _ => d.answer tag Kind.timingSelect .range []

end Sys2Proof.Machine
end

