-- ==== Sys2Proof/Machine/NoticeCommands.lean ====
section
/-! DEFINITION. The commands on notices and cue lines as the executor takes them (R172 to R174, R177, R180), and a change
at a cue line (R178). -/

namespace Sys2Proof.Machine

/-! ## Notices -/

/-- The place of the record of a source number, 1 to 28. -/
def noticeIndex (number : Nat) : Option (Fin 28) :=
  if h : 1 ≤ number ∧ number ≤ 28 then some ⟨number - 1, by omega⟩ else none

/-- The level of one pair of NOTICE_LEVEL applied (R172). -/
def applyLevel (ns : Vector NoticeRecord 28) (pair : Byte × Byte) : Vector NoticeRecord 28 :=
  match noticeIndex pair.1.toNat with
  | some i => if h : pair.2.toNat < 8 then ns.set i { ns[i] with level := ⟨pair.2.toNat, h⟩ } else ns
  | none => ns

/-- A pair of NOTICE_LEVEL within its ranges (R172). -/
def pairInRange (pair : Byte × Byte) : Bool := (noticeIndex pair.1.toNat).isSome && decide (pair.2.toNat ≤ 7)

/-- NOTICE_LEVEL (R172): every pair in list order; an IDLE uplink makes its choice at once. -/
def Device.takeNoticeLevel (tag : Byte) (p : List Byte) (d : Device) : Device :=
  if p.length % 2 ≠ 0 ∨ p.length = 0 ∨ 56 < p.length then d.answer tag Kind.noticeLevel .length []
  else if !(pairsOf p).all pairInRange then d.answer tag Kind.noticeLevel .range []
  else d.unlessTagged tag Kind.noticeLevel fun d =>
    (({ d with notices := (pairsOf p).foldl applyLevel d.notices } : Device).choose).answer tag Kind.noticeLevel .ok []

/-- The source of a number lowered (R173). -/
def lowerNumber (ns : Vector NoticeRecord 28) (number : Byte) : Vector NoticeRecord 28 :=
  match noticeIndex number.toNat with
  | some i => ns.set i ns[i].lower
  | none => ns

/-- NOTICE_WITHDRAW (R173). -/
def Device.takeNoticeWithdraw (tag : Byte) (p : List Byte) (d : Device) : Device :=
  if p.length = 0 ∨ 28 < p.length then d.answer tag Kind.noticeWithdraw .length []
  else if !p.all fun n => (noticeIndex n.toNat).isSome then d.answer tag Kind.noticeWithdraw .range []
  else d.unlessTagged tag Kind.noticeWithdraw fun d =>
    ({ d with notices := p.foldl lowerNumber d.notices } : Device).answer tag Kind.noticeWithdraw .ok []

/-- The notice entry of the record at a place, where its source is raised (R174). -/
def raisedEntry (ns : Vector NoticeRecord 28) (i : Fin 28) : Option (List Byte) :=
  ns[i].raised.map fun detail => noticeEntry (i.val + 1) ns[i].level ns[i].superseded detail

/-- The entries of every raised source, in ascending source number (R174). -/
def raisedEntries (ns : Vector NoticeRecord 28) : List (List Byte) := (List.finRange 28).filterMap (raisedEntry ns)

/-- NOTICE_POLL (R174): every raised source is collected and lowered. -/
def Device.takeNoticePoll (tag : Byte) (p : List Byte) (d : Device) : Device :=
  if p.length ≠ 0 then d.answer tag Kind.noticePoll .length []
  else d.unlessTagged tag Kind.noticePoll fun d =>
    let entries := raisedEntries d.notices
    ({ d with notices := d.notices.map NoticeRecord.lower } : Device).answer tag Kind.noticePoll .ok
      (byte1 entries.length ++ entries.flatten)

/-! ## Cue lines -/

/-- The output functions (R176). -/
def CueFunction.isOutput : CueFunction → Bool
  | .general => false
  | .editMark _ => false
  | .freeze _ => false
  | .tallyDropout _ => true
  | .tallyFilm _ => true
  | .attention _ => true

/-- EDIT_MARK and FREEZE need their input on (R177). -/
def CueFunction.needsInput : CueFunction → Bool
  | .general => false
  | .editMark _ => true
  | .freeze _ => true
  | .tallyDropout _ => false
  | .tallyFilm _ => false
  | .attention _ => false

/-- CUE_CONFIG that passed its checks (R177): the four parts are replaced; a line that had an output function keeps, as
its general output level, the level that function was driving. -/
def Device.configureCue (n : CueNo) (function : CueFunction) (inputOn : Bool) (polarity : Polarity) (d : Device) :
    Device :=
  let low := if (d.cue n).function.isOutput then d.drives n else (d.cue n).drivesLow
  { d with cues := d.cues.set n ⟨function, inputOn, polarity, low⟩ }

/-- CUE_CONFIG (R177). -/
def Device.takeCueConfig (tag : Byte) (p : List Byte) (d : Device) : Device :=
  if p.length ≠ 5 then d.answer tag Kind.cueConfig .length []
  else
    match cueNoOf (byteAt p 0), cueFunctionOf (byteAt p 1) (byteAt p 2), onOffOf (byteAt p 3), polarityOf (byteAt p 4) with
    | some n, some (some function), some inputOn, some polarity =>
      if function.needsInput && !inputOn then d.answer tag Kind.cueConfig .needsInput []
      else d.unlessTagged tag Kind.cueConfig fun d =>
        (d.configureCue n function inputOn polarity).answer tag Kind.cueConfig .ok []
    | _, _, _, _ => d.answer tag Kind.cueConfig .range []

/-- CUE_READ (R180). -/
def Device.takeCueRead (tag : Byte) (p : List Byte) (d : Device) : Device :=
  if p.length ≠ 0 then d.answer tag Kind.cueRead .length []
  else d.unlessTagged tag Kind.cueRead fun d =>
    d.answer tag Kind.cueRead .ok [cueMask d.sensed, cueMask d.drives]

/-- CUE_SET on one line of its mask (R180): a GENERAL line takes the level bit as its general output level, its drive
follows at once, and a sensed level that changes is an edge (R178). -/
def Device.setCue (low : Bool) (n : CueNo) (d : Device) : Device :=
  let before := d.sensed n
  ({ d with cues := d.cues.set n { d.cue n with drivesLow := low } } : Device).edgeSince n before

/-- The lines of a CUE_SET mask whose function is GENERAL (R180). -/
def Device.cueSetLines (d : Device) (mask : Byte) : List CueNo :=
  (List.finRange 8).filter fun n => mask.getLsbD n.val && decide ((d.cue n).function = .general)

/-- CUE_SET (R180). -/
def Device.takeCueSet (tag : Byte) (p : List Byte) (d : Device) : Device :=
  if p.length ≠ 2 then d.answer tag Kind.cueSet .length []
  else d.unlessTagged tag Kind.cueSet fun d =>
    let lines := d.cueSetLines (p.getD 0 0)
    (lines.foldl (fun d n => d.setCue ((p.getD 1 0).getLsbD n.val) n) d).answer tag Kind.cueSet .ok
      [cueMask fun n => lines.contains n]

/-- The outside changes the level it gives a line (R178); a sensed level that changes is an edge. -/
def Device.outsideLevel (n : CueNo) (high : Bool) (d : Device) : Device :=
  let before := d.sensed n
  ({ d with cueOutside := d.cueOutside.set n high } : Device).edgeSince n before

end Sys2Proof.Machine
end

