-- ==== Sys2Proof/Machine/Link.lean ====
section
/-! DEFINITION. The control link: the command FIFO, the executor, the receiver and the uplink (R158 to R165, R171). -/

namespace Sys2Proof.Machine

/-- A frame taken by the executor (R163): a KIND that is not an assigned command code is answered UNKNOWN, with its own
KIND echoed; any other goes to its command's rule. -/
def Device.takeFrame (f : Command) (d : Device) : Device :=
  match f.kind.toNat with
  | 0x01 => d.takeIdentify f.tag f.payload
  | 0x02 => d.takeDeviceReset f.tag f.payload
  | 0x10 => d.takeChannelConfig f.tag f.payload
  | 0x11 => d.takeChannelStart f.tag f.payload
  | 0x12 => d.takeChannelStop f.tag f.payload
  | 0x13 => d.takeChannelReset f.tag f.payload
  | 0x14 => d.takeChannelStatus f.tag f.payload
  | 0x15 => d.takeChannelFreeze f.tag f.payload
  | 0x20 => d.takeProfileWrite f.tag f.payload
  | 0x21 => d.takeProfileRead f.tag f.payload
  | 0x22 => d.takeProfileErase f.tag f.payload
  | 0x30 => d.takePlanStageClear f.tag f.payload
  | 0x31 => d.takePlanStageAdd f.tag f.payload
  | 0x32 => d.takePlanCommit f.tag f.payload
  | 0x33 => d.takePlanRead f.tag f.payload
  | 0x40 => d.takeContextRefresh f.tag f.payload
  | 0x41 => d.takeHistoryFlush f.tag f.payload
  | 0x42 => d.takeTimingSelect f.tag f.payload
  | 0x50 => d.takeDroplogRead f.tag f.payload
  | 0x51 => d.takeDroplogClear f.tag f.payload
  | 0x52 => d.takeDroplogWatermark f.tag f.payload
  | 0x60 => d.takeNoticeLevel f.tag f.payload
  | 0x61 => d.takeNoticeWithdraw f.tag f.payload
  | 0x62 => d.takeNoticePoll f.tag f.payload
  | 0x70 => d.takeCueConfig f.tag f.payload
  | 0x71 => d.takeCueRead f.tag f.payload
  | 0x72 => d.takeCueSet f.tag f.payload
  | _ => d.answer f.tag f.kind .unknown []

/-- The flow condition of R162: the free places of the reply queue are more than the operations in flight. -/
def Device.mayTake (d : Device) : Bool := decide (d.ops.length < Config.replyDepth - d.replies.length)

/-- The executor takes frames, oldest first, while the conditions of R162 hold; `n` bounds the takes, and the FIFO's
length is enough, since a take puts no frame into it. -/
def Device.execute : Nat → Device → Device
  | 0, d => d
  | n + 1, d =>
    match d.fifo with
    | [] => d
    | f :: rest => if d.mayTake then ({ d with fifo := rest } : Device).takeFrame f |>.execute n else d

/-- The conditions of R162 are tested again at the end of an event. -/
def Device.settle (d : Device) : Device := d.execute d.fifo.length

/-- Whether the link takes characters and frames: after the STARTING period (R167, R182). -/
def Device.linkUp (d : Device) : Bool := decide (d.phase = .operating)

/-- A fault of the receiver raises LINK_FAULT (R161). -/
def Device.linkFault (reason : LinkFault) (d : Device) : Device := d.raise .linkFault (.linkFault reason)

/-- A good frame is handed to the command FIFO (R161): appended while it holds fewer than four frames, otherwise
discarded with an OVERRUN fault. -/
def Device.acceptFrame (f : Command) (d : Device) : Device :=
  if d.fifo.length < Config.fifoDepth then { d with fifo := d.fifo ++ [f] } else d.linkFault .overrun

/-- A command frame is delivered over the control link, its framing already checked: it goes to the command FIFO, and
the executor takes what it may (R161 to R163).  In reset and STARTING the link ignores it (R182). -/
def Device.deliver (f : Command) (d : Device) : Device := if d.linkUp then (d.acceptFrame f).settle else d

/-- The bytes that follow SYNC in a frame: LEN, then the LEN bytes held, KIND and TAG first (R157, R158). -/
def commandOf (held : List Byte) : Command := ⟨held.getD 0 0, held.getD 1 0, held.drop 2⟩

/-- A byte that is not SYNC is received in HUNT (R160): it is dropped, and raises a NOISE fault when the noise-run flag
was clear. -/
def Device.noiseByte (d : Device) : Device :=
  if d.noiseRun then d else ({ d with noiseRun := true } : Device).linkFault .noise

/-- The receiver goes to a state with a byte, which restarts the gap timer (R159). -/
def Device.receiverTo (r : Receiver) (d : Device) : Device := { d with receiver := r, gapSince := d.now }

/-- One received byte, by the state the receiver is in (R158). -/
def Device.receiveByte (b : Byte) (d : Device) : Device :=
  match d.receiver with
  | .hunt => if b = 0xA5 then ({ d with noiseRun := false } : Device).receiverTo .length else d.noiseByte
  | .length =>
    if 2 ≤ b.toNat ∧ b.toNat ≤ 250 then d.receiverTo (.body b.toNat [])
    else (d.receiverTo .hunt).linkFault .length
  | .body len held =>
    if len ≤ held.length + 1 then d.receiverTo (.check len (held ++ [b])) else d.receiverTo (.body len (held ++ [b]))
  | .check len held =>
    if byteSum (BitVec.ofNat 8 len :: held ++ [b]) = 0 then (d.receiverTo .hunt).acceptFrame (commandOf held)
    else (d.receiverTo .hunt).linkFault .checksum

/-- A character arrives on the serial line (R158); in reset and STARTING it is ignored (R182). -/
def Device.byteArrives (b : Byte) (d : Device) : Device := if d.linkUp then d.receiveByte b else d

/-- The gap timer expires (R159): outside HUNT the frame being assembled is abandoned with a GAP fault. -/
def Device.gapExpires (d : Device) : Device :=
  match d.receiver with
  | .hunt => d
  | .length => ({ d with receiver := .hunt } : Device).linkFault .gap
  | .body _ _ => ({ d with receiver := .hunt } : Device).linkFault .gap
  | .check _ _ => ({ d with receiver := .hunt } : Device).linkFault .gap

/-- A message on the uplink ends (R165): the uplink is IDLE and makes its choice. -/
def Device.messageEnds (d : Device) : Device :=
  match d.uplink with
  | .idle => d
  | .sending _ _ => ({ d with uplink := .idle } : Device).choose

end Sys2Proof.Machine
end

