-- ==== Sys2Proof/Machine/Clock.lean ====
section
/-! DEFINITION. The passing of time: one tick of the 27 MHz reference, at which the timers that have run out fire.  It is
what `step` does when no command waits (log 1). -/

namespace Sys2Proof.Machine

/-- The timers of the part: what runs out by the clock and not by an event from outside. -/
inductive Timer where
  | starting
  | gap
  | uplink
  | house
  | fieldTimeout (c : Chan)
  | reconstruction (c : Chan)
  | outputFrame (c : Chan)
  | reference (c : Chan)
  | priorReference (c : Chan)
  | acquisition (c : Chan)
  deriving DecidableEq, Repr

/-- Every timer. -/
def allTimers : List Timer :=
  [.starting, .gap, .uplink, .house] ++ allChans.map .fieldTimeout ++ allChans.map .reconstruction ++
  allChans.map .outputFrame ++ allChans.map .reference ++ allChans.map .priorReference ++ allChans.map .acquisition

/-- The number of a timer, by which the free ranks of `Config.timerRank` are asked for. -/
def Timer.number : Timer → Nat
  | .starting => 0
  | .gap => 1
  | .uplink => 2
  | .house => 3
  | .fieldTimeout c => 4 + c.val
  | .reconstruction c => 8 + c.val
  | .outputFrame c => 12 + c.val
  | .reference c => 16 + c.val
  | .priorReference c => 20 + c.val
  | .acquisition c => 24 + c.val

/-- The reading of the reference at the last reference frame start of a source (R125, R130). -/
def Device.lastReference (d : Device) (c : Chan) : RefSource → Option Ticks
  | .house => d.lastHouse
  | .input => (d.chan c).gen.lastInput

/-- A duration has passed since a reading of the reference. -/
def Device.passed (d : Device) (since : Option Ticks) (duration : Ticks) : Bool :=
  since.any fun t => decide (t + duration ≤ d.now)

/-- No reference frame start has come for a duration; where the reading of the last one has been given up, the house
timeout has passed since (R125), which is at least the duration. -/
def Device.silent (d : Device) (last : Option Ticks) (duration : Ticks) : Bool :=
  last.all fun t => decide (t + duration ≤ d.now)

/-- Whether a timer has run out: the STARTING period (R182), the gap timer (R159), the sending of a message of n bytes
in 10n bit times at the line rate (R165), the house timeout (R125), the field timeout (R15), the work of a
reconstruction, a free time within R90's bound (log 22), the period of the output frame starts that the generator makes
(R126), the reference loss time in LOCKED (R130) and of a LOCKED prior state (R129), and the acquisition window (R129).

DESIGN CHOICE (log 26): when a change of timing finds the period of its new state already past since the last output
frame start, R126 gives no moment for the next one, and the generator makes it at the next tick. -/
def Device.due (d : Device) : Timer → Bool
  | .starting =>
    match d.phase with
    | .starting since => decide (since + Config.startingTime ≤ d.now)
    | .held => false
    | .operating => false
  | .gap => d.linkUp && decide (d.receiver ≠ .hunt) && decide (d.gapSince + Config.gapTime ≤ d.now)
  | .uplink =>
    match d.uplink with
    | .idle => false
    | .sending frame since => decide (10 * frame.length * Config.referenceHz ≤ (d.now - since) * d.lineRate)
  | .house => d.passed d.lastHouse Config.houseTimeout
  | .fieldTimeout c =>
    decide ((d.chan c).state = .running) && d.passed (d.chan c).intake.timeout 0
  | .reconstruction c =>
    let ch := d.chan c
    !ch.recon.jobs.isEmpty && decide (ch.recon.workStart +
      min ch.settings.system.workTime (Config.reconWork c.val ch.recon.workStart) ≤ d.now)
  | .outputFrame c =>
    let ch := d.chan c
    d.released && (ch.gen.freePeriod ch.settings.system).any fun p => decide (ch.gen.lastOut + p ≤ d.now)
  | .reference c =>
    let ch := d.chan c
    match ch.gen.state with
    | .settled (.locked s) => d.silent (d.lastReference c s) ch.settings.system.lossTime
    | _ => false
  | .priorReference c =>
    let ch := d.chan c
    match ch.gen.state with
    | .acquire a =>
      match a.prior with
      | .locked s => d.silent (d.lastReference c s) ch.settings.system.lossTime
      | _ => false
    | _ => false
  | .acquisition c =>
    let ch := d.chan c
    match ch.gen.state with
    | .acquire a => decide (a.began + ch.settings.system.window ≤ d.now)
    | _ => false

/-- What a timer does when it runs out: the event of its row. -/
def Device.fire (d : Device) : Timer → Device
  | .starting => d.startingEnds
  | .gap => d.gapExpires
  | .uplink => d.messageEnds
  | .house => d.houseSilent
  | .fieldTimeout c => d.timeoutExpires c
  | .reconstruction c => d.completeRecon c
  | .outputFrame c => d.outputFrame c
  | .reference c => d.loseReference c
  | .priorReference c => d.losePriorReference c
  | .acquisition c => d.failAcquisition c

/-- The expiry of a timer arrives: it is acted on when the timer has run out by the clock, and does not happen when the
timer is disarmed or an event taken before it has armed it afresh (R15; log 12). -/
def Device.expire (t : Timer) (d : Device) : Device := if d.due t then d.fire t else d

/-- A timer put in its place among others by a rank. -/
def insertTimer (rank : Timer → Nat) (t : Timer) : List Timer → List Timer
  | [] => [t]
  | u :: rest => if rank t ≤ rank u then t :: u :: rest else u :: insertTimer rank t rest

/-- Timers in the order of a rank. -/
def orderTimers (rank : Timer → Nat) (ts : List Timer) : List Timer := ts.foldr (insertTimer rank) []

/-- A timer that has run out fires, unless an event of the same tick before it has stopped or restarted it; at the end
of that event the conditions of the executor are tested again (R162). -/
def Device.fireIfDue (d : Device) (t : Timer) : Device := if d.due t then (d.fire t).settle else d

/-- One tick of the 27 MHz reference.  The timers that have run out fire one after another, in the order of the free
ranks (log 4).  DESIGN CHOICE (log 28): they are chosen at the start of the tick, so a timer that only an event of this
tick has made run out, as the reference loss does where the window's end restores a silent LOCKED, fires at the next. -/
def Device.tick (d : Device) : Device :=
  let d : Device := { d with now := d.now + 1 }
  (orderTimers (fun t => Config.timerRank d.now t.number) (allTimers.filter d.due)).foldl Device.fireIfDue d

end Sys2Proof.Machine
end

