-- ==== Sys2Proof/Machine/Rows.lean ====
section
/-! DEFINITION. The meaning of each row of the opcode table: one definition per constructor of `Instr`.

A command row delivers its command frame over the control link (log 10); what the executor then does is the command's
rule, in the command files.  An event row happens at a reading of the reference, and at its end the conditions of the
executor are tested again (R162).  The row of a timer whose duration a rule states is acted on when the timer has run
out by the clock (log 12). -/

namespace Sys2Proof.Machine

/-- The outcome of a step that changes the part alone. -/
def State.onDevice (s : State) (f : Device → Device) : Host.Outcome State Fault Refusal :=
  .next { s with dev := f s.dev }

/-- A command frame arrives over the control link (log 10). -/
def State.onCommand (s : State) (kind tag : Byte) (payload : List Byte) : Host.Outcome State Fault Refusal :=
  s.onDevice (Device.deliver ⟨kind, tag, payload⟩)

/-- An event happens at a reading of the reference; while a reset holds the blocks it reaches none of them (R181).
DESIGN CHOICE (log 27): a timer whose deadline the reading passes does not fire by that alone; the event is handled in the
state it finds, as one taken before an expiry of the same moment would be. -/
def State.onEvent (s : State) (t : Ticks) (f : Device → Device) : Host.Outcome State Fault Refusal :=
  s.onDevice fun d => if d.released then (f (d.arrive t)).settle else d.arrive t

/-- An event of the supply or the reset pin happens at a reading of the reference; a reset in progress does not keep it
away (R181).  Overdue timers are log 27's here too. -/
def State.onPin (s : State) (t : Ticks) (f : Device → Device) : Host.Outcome State Fault Refusal :=
  s.onDevice fun d => f (d.arrive t)

/-! ## Commands -/

/-- IDENTIFY (R166). -/
def execIdentify (tag : Byte) (payload : List Byte) (s : State) : Host.Outcome State Fault Refusal :=
  s.onCommand Kind.identify tag payload

/-- DEVICE_RESET (R181). -/
def execDeviceReset (tag : Byte) (payload : List Byte) (s : State) : Host.Outcome State Fault Refusal :=
  s.onCommand Kind.deviceReset tag payload

/-- CHANNEL_CONFIG (R142). -/
def execChannelConfig (tag : Byte) (payload : List Byte) (s : State) : Host.Outcome State Fault Refusal :=
  s.onCommand Kind.channelConfig tag payload

/-- CHANNEL_START (R144). -/
def execChannelStart (tag : Byte) (payload : List Byte) (s : State) : Host.Outcome State Fault Refusal :=
  s.onCommand Kind.channelStart tag payload

/-- CHANNEL_STOP (R145). -/
def execChannelStop (tag : Byte) (payload : List Byte) (s : State) : Host.Outcome State Fault Refusal :=
  s.onCommand Kind.channelStop tag payload

/-- CHANNEL_RESET (R148). -/
def execChannelReset (tag : Byte) (payload : List Byte) (s : State) : Host.Outcome State Fault Refusal :=
  s.onCommand Kind.channelReset tag payload

/-- CHANNEL_STATUS (R150). -/
def execChannelStatus (tag : Byte) (payload : List Byte) (s : State) : Host.Outcome State Fault Refusal :=
  s.onCommand Kind.channelStatus tag payload

/-- CHANNEL_FREEZE (R151). -/
def execChannelFreeze (tag : Byte) (payload : List Byte) (s : State) : Host.Outcome State Fault Refusal :=
  s.onCommand Kind.channelFreeze tag payload

/-- PROFILE_WRITE (R39). -/
def execProfileWrite (tag : Byte) (payload : List Byte) (s : State) : Host.Outcome State Fault Refusal :=
  s.onCommand Kind.profileWrite tag payload

/-- PROFILE_READ (R40). -/
def execProfileRead (tag : Byte) (payload : List Byte) (s : State) : Host.Outcome State Fault Refusal :=
  s.onCommand Kind.profileRead tag payload

/-- PROFILE_ERASE (R41). -/
def execProfileErase (tag : Byte) (payload : List Byte) (s : State) : Host.Outcome State Fault Refusal :=
  s.onCommand Kind.profileErase tag payload

/-- PLAN_STAGE_CLEAR (R29). -/
def execPlanStageClear (tag : Byte) (payload : List Byte) (s : State) : Host.Outcome State Fault Refusal :=
  s.onCommand Kind.planStageClear tag payload

/-- PLAN_STAGE_ADD (R28). -/
def execPlanStageAdd (tag : Byte) (payload : List Byte) (s : State) : Host.Outcome State Fault Refusal :=
  s.onCommand Kind.planStageAdd tag payload

/-- PLAN_COMMIT (R31). -/
def execPlanCommit (tag : Byte) (payload : List Byte) (s : State) : Host.Outcome State Fault Refusal :=
  s.onCommand Kind.planCommit tag payload

/-- PLAN_READ (R30). -/
def execPlanRead (tag : Byte) (payload : List Byte) (s : State) : Host.Outcome State Fault Refusal :=
  s.onCommand Kind.planRead tag payload

/-- CONTEXT_REFRESH (R47). -/
def execContextRefresh (tag : Byte) (payload : List Byte) (s : State) : Host.Outcome State Fault Refusal :=
  s.onCommand Kind.contextRefresh tag payload

/-- HISTORY_FLUSH (R102). -/
def execHistoryFlush (tag : Byte) (payload : List Byte) (s : State) : Host.Outcome State Fault Refusal :=
  s.onCommand Kind.historyFlush tag payload

/-- TIMING_SELECT (R127). -/
def execTimingSelect (tag : Byte) (payload : List Byte) (s : State) : Host.Outcome State Fault Refusal :=
  s.onCommand Kind.timingSelect tag payload

/-- DROPLOG_READ (R64). -/
def execDroplogRead (tag : Byte) (payload : List Byte) (s : State) : Host.Outcome State Fault Refusal :=
  s.onCommand Kind.droplogRead tag payload

/-- DROPLOG_CLEAR (R65). -/
def execDroplogClear (tag : Byte) (payload : List Byte) (s : State) : Host.Outcome State Fault Refusal :=
  s.onCommand Kind.droplogClear tag payload

/-- DROPLOG_WATERMARK (R66). -/
def execDroplogWatermark (tag : Byte) (payload : List Byte) (s : State) : Host.Outcome State Fault Refusal :=
  s.onCommand Kind.droplogWatermark tag payload

/-- NOTICE_LEVEL (R172). -/
def execNoticeLevel (tag : Byte) (payload : List Byte) (s : State) : Host.Outcome State Fault Refusal :=
  s.onCommand Kind.noticeLevel tag payload

/-- NOTICE_WITHDRAW (R173). -/
def execNoticeWithdraw (tag : Byte) (payload : List Byte) (s : State) : Host.Outcome State Fault Refusal :=
  s.onCommand Kind.noticeWithdraw tag payload

/-- NOTICE_POLL (R174). -/
def execNoticePoll (tag : Byte) (payload : List Byte) (s : State) : Host.Outcome State Fault Refusal :=
  s.onCommand Kind.noticePoll tag payload

/-- CUE_CONFIG (R177). -/
def execCueConfig (tag : Byte) (payload : List Byte) (s : State) : Host.Outcome State Fault Refusal :=
  s.onCommand Kind.cueConfig tag payload

/-- CUE_READ (R180). -/
def execCueRead (tag : Byte) (payload : List Byte) (s : State) : Host.Outcome State Fault Refusal :=
  s.onCommand Kind.cueRead tag payload

/-- CUE_SET (R180). -/
def execCueSet (tag : Byte) (payload : List Byte) (s : State) : Host.Outcome State Fault Refusal :=
  s.onCommand Kind.cueSet tag payload

/-- UNKNOWN_KIND (R163). -/
def execUnknownKind (kind tag : Byte) (payload : List Byte) (s : State) : Host.Outcome State Fault Refusal :=
  s.onCommand kind tag payload

/-! ## Events -/

/-- FIELD_START (R5). -/
def execFieldStart (t : Ticks) (c : Chan) (label : Label) (s : State) : Host.Outcome State Fault Refusal :=
  s.onEvent t (Device.fieldStart c label)

/-- LINE_ARRIVAL (R10). -/
def execLineArrival (t : Ticks) (c : Chan) (line : Line) (s : State) : Host.Outcome State Fault Refusal :=
  s.onEvent t (Device.lineArrives c line)

/-- FIELD_END (R11, R14). -/
def execFieldEnd (t : Ticks) (field : EndedField) (s : State) : Host.Outcome State Fault Refusal :=
  s.onEvent t (Device.fieldEnds field)

/-- FIELD_TIMEOUT_EXPIRY (R15). -/
def execFieldTimeoutExpiry (t : Ticks) (c : Chan) (s : State) : Host.Outcome State Fault Refusal :=
  s.onEvent t (Device.expire (.fieldTimeout c))

/-- RECONSTRUCTION_COMPLETION (R90). -/
def execReconstructionCompletion (t : Ticks) (c : Chan) (s : State) : Host.Outcome State Fault Refusal :=
  s.onEvent t (Device.completeRecon c)

/-- OUTPUT_FRAME_START (R126), of a generator that counts its own period.  In LOCKED the output frame starts are those of
the reference frame starts, in whose rows they stand. -/
def execOutputFrameStart (t : Ticks) (c : Chan) (s : State) : Host.Outcome State Fault Refusal :=
  s.onEvent t (Device.expire (.outputFrame c))

/-- HOUSE_FRAME_START (R125). -/
def execHouseFrameStart (t : Ticks) (s : State) : Host.Outcome State Fault Refusal :=
  s.onEvent t Device.houseStart

/-- HOUSE_FAMILY_TIMEOUT (R125). -/
def execHouseFamilyTimeout (t : Ticks) (s : State) : Host.Outcome State Fault Refusal :=
  s.onEvent t (Device.expire .house)

/-- REFERENCE_LOST (R130). -/
def execReferenceLost (t : Ticks) (c : Chan) (s : State) : Host.Outcome State Fault Refusal :=
  s.onEvent t (Device.expire (.reference c))

/-- PRIOR_REFERENCE_LOST (R129). -/
def execPriorReferenceLost (t : Ticks) (c : Chan) (s : State) : Host.Outcome State Fault Refusal :=
  s.onEvent t (Device.expire (.priorReference c))

/-- ACQUISITION_WINDOW_END (R129). -/
def execAcquisitionWindowEnd (t : Ticks) (c : Chan) (s : State) : Host.Outcome State Fault Refusal :=
  s.onEvent t (Device.expire (.acquisition c))

/-- RECEIVED_BYTE (R158). -/
def execReceivedByte (t : Ticks) (b : Byte) (s : State) : Host.Outcome State Fault Refusal :=
  s.onEvent t (Device.byteArrives b)

/-- GAP_TIMER_EXPIRY (R159). -/
def execGapTimerExpiry (t : Ticks) (s : State) : Host.Outcome State Fault Refusal :=
  s.onEvent t (Device.expire .gap)

/-- UPLINK_MESSAGE_END (R165). -/
def execUplinkMessageEnd (t : Ticks) (s : State) : Host.Outcome State Fault Refusal :=
  s.onEvent t (Device.expire .uplink)

/-- CUE_LINE_EDGE (R178).  The level at the pin is the outside's, and a reset in progress does not keep it away. -/
def execCueLineEdge (t : Ticks) (line : CueNo) (high : Bool) (s : State) : Host.Outcome State Fault Refusal :=
  s.onPin t fun d => (d.outsideLevel line high).settle

/-- POWER_UP (R181). -/
def execPowerUp (t : Ticks) (s : State) : Host.Outcome State Fault Refusal :=
  s.onPin t Device.supplyFails

/-- SUPPLY_GOOD (R181). -/
def execSupplyGood (t : Ticks) (strap1 strap0 : Bool) (s : State) : Host.Outcome State Fault Refusal :=
  s.onPin t (Device.supplyReturns strap1 strap0)

/-- RESET_PIN_ASSERT (R181). -/
def execResetPinAssert (t : Ticks) (s : State) : Host.Outcome State Fault Refusal :=
  s.onPin t Device.pinFalls

/-- RESET_PIN_RELEASE (R181). -/
def execResetPinRelease (t : Ticks) (strap1 strap0 : Bool) (s : State) : Host.Outcome State Fault Refusal :=
  s.onPin t (Device.pinRises strap1 strap0)

/-- STARTING_END (R182). -/
def execStartingEnd (t : Ticks) (s : State) : Host.Outcome State Fault Refusal :=
  s.onEvent t (Device.expire .starting)

/-- POWER_FAILURE (R181). -/
def execPowerFailure (t : Ticks) (s : State) : Host.Outcome State Fault Refusal :=
  s.onPin t Device.supplyFails

end Sys2Proof.Machine
end

