-- ==== Sys2Proof/Machine/Dispatch.lean ====
section
/-! DEFINITION. exec: one arm per constructor of Instr, each one direct call of its meaning. -/

namespace Sys2Proof.Machine

def exec (i : Instr) (s : State) : Host.Outcome State Fault Refusal :=
  match i with
  | .identify tag payload => Sys2Proof.Machine.execIdentify tag payload s
  | .deviceReset tag payload => Sys2Proof.Machine.execDeviceReset tag payload s
  | .channelConfig tag payload => Sys2Proof.Machine.execChannelConfig tag payload s
  | .channelStart tag payload => Sys2Proof.Machine.execChannelStart tag payload s
  | .channelStop tag payload => Sys2Proof.Machine.execChannelStop tag payload s
  | .channelReset tag payload => Sys2Proof.Machine.execChannelReset tag payload s
  | .channelStatus tag payload => Sys2Proof.Machine.execChannelStatus tag payload s
  | .channelFreeze tag payload => Sys2Proof.Machine.execChannelFreeze tag payload s
  | .profileWrite tag payload => Sys2Proof.Machine.execProfileWrite tag payload s
  | .profileRead tag payload => Sys2Proof.Machine.execProfileRead tag payload s
  | .profileErase tag payload => Sys2Proof.Machine.execProfileErase tag payload s
  | .planStageClear tag payload => Sys2Proof.Machine.execPlanStageClear tag payload s
  | .planStageAdd tag payload => Sys2Proof.Machine.execPlanStageAdd tag payload s
  | .planCommit tag payload => Sys2Proof.Machine.execPlanCommit tag payload s
  | .planRead tag payload => Sys2Proof.Machine.execPlanRead tag payload s
  | .contextRefresh tag payload => Sys2Proof.Machine.execContextRefresh tag payload s
  | .historyFlush tag payload => Sys2Proof.Machine.execHistoryFlush tag payload s
  | .timingSelect tag payload => Sys2Proof.Machine.execTimingSelect tag payload s
  | .droplogRead tag payload => Sys2Proof.Machine.execDroplogRead tag payload s
  | .droplogClear tag payload => Sys2Proof.Machine.execDroplogClear tag payload s
  | .droplogWatermark tag payload => Sys2Proof.Machine.execDroplogWatermark tag payload s
  | .noticeLevel tag payload => Sys2Proof.Machine.execNoticeLevel tag payload s
  | .noticeWithdraw tag payload => Sys2Proof.Machine.execNoticeWithdraw tag payload s
  | .noticePoll tag payload => Sys2Proof.Machine.execNoticePoll tag payload s
  | .cueConfig tag payload => Sys2Proof.Machine.execCueConfig tag payload s
  | .cueRead tag payload => Sys2Proof.Machine.execCueRead tag payload s
  | .cueSet tag payload => Sys2Proof.Machine.execCueSet tag payload s
  | .unknownKind kind tag payload => Sys2Proof.Machine.execUnknownKind kind tag payload s
  | .fieldStart t c label => Sys2Proof.Machine.execFieldStart t c label s
  | .lineArrival t c line => Sys2Proof.Machine.execLineArrival t c line s
  | .fieldEnd t field => Sys2Proof.Machine.execFieldEnd t field s
  | .fieldTimeoutExpiry t c => Sys2Proof.Machine.execFieldTimeoutExpiry t c s
  | .reconstructionCompletion t c => Sys2Proof.Machine.execReconstructionCompletion t c s
  | .outputFrameStart t c => Sys2Proof.Machine.execOutputFrameStart t c s
  | .houseFrameStart t => Sys2Proof.Machine.execHouseFrameStart t s
  | .houseFamilyTimeout t => Sys2Proof.Machine.execHouseFamilyTimeout t s
  | .referenceLost t c => Sys2Proof.Machine.execReferenceLost t c s
  | .priorReferenceLost t c => Sys2Proof.Machine.execPriorReferenceLost t c s
  | .acquisitionWindowEnd t c => Sys2Proof.Machine.execAcquisitionWindowEnd t c s
  | .receivedByte t b => Sys2Proof.Machine.execReceivedByte t b s
  | .gapTimerExpiry t => Sys2Proof.Machine.execGapTimerExpiry t s
  | .uplinkMessageEnd t => Sys2Proof.Machine.execUplinkMessageEnd t s
  | .cueLineEdge t line high => Sys2Proof.Machine.execCueLineEdge t line high s
  | .powerUp t => Sys2Proof.Machine.execPowerUp t s
  | .supplyGood t strap1 strap0 => Sys2Proof.Machine.execSupplyGood t strap1 strap0 s
  | .resetPinAssert t => Sys2Proof.Machine.execResetPinAssert t s
  | .resetPinRelease t strap1 strap0 => Sys2Proof.Machine.execResetPinRelease t strap1 strap0 s
  | .startingEnd t => Sys2Proof.Machine.execStartingEnd t s
  | .powerFailure t => Sys2Proof.Machine.execPowerFailure t s

end Sys2Proof.Machine
end

