-- ==== Sys2Proof/Safety.lean ====
section
/-! DEFINITION. What a good state of the part is, in the terms the statements use: when the link takes a command at
once, and the invariants that every step keeps. -/

namespace Sys2Proof.Machine

/-! ## When the link takes a command at once -/

/-- A command frame that arrives is taken at once: the STARTING period is over (R182), no frame waits in the command
FIFO, and the flow condition of R162 holds. -/
def Device.Ready (d : Device) : Prop :=
  d.phase = .operating ∧ d.fifo = [] ∧ d.ops.length + d.replies.length < Config.replyDepth

/-- An event reaches the blocks and no command waits to be taken after it: no reset holds the blocks (R181) and the
command FIFO is empty. -/
def Device.Quiet (d : Device) : Prop := d.phase ≠ .held ∧ d.fifo = []

/-- What work on channel c leaves as it was: the other channels, the clock, the pins and the start-up, the profile table,
the watermark, the receiver and the command FIFO, the cue lines, and the house reference input. -/
structure Device.KeepsRest (c : Chan) (d d' : Device) : Prop where
  others : ∀ c', c' ≠ c → d'.chan c' = d.chan c'
  now : d'.now = d.now
  phase : d'.phase = d.phase
  supplyGood : d'.supplyGood = d.supplyGood
  pinAsserted : d'.pinAsserted = d.pinAsserted
  strap1 : d'.strap1 = d.strap1
  strap0 : d'.strap0 = d.strap0
  lineRate : d'.lineRate = d.lineRate
  cause : d'.cause = d.cause
  profiles : d'.profiles = d.profiles
  watermark : d'.watermark = d.watermark
  receiver : d'.receiver = d.receiver
  gapSince : d'.gapSince = d.gapSince
  noiseRun : d'.noiseRun = d.noiseRun
  fifo : d'.fifo = d.fifo
  cues : d'.cues = d.cues
  cueOutside : d'.cueOutside = d.cueOutside
  houseFamily : d'.houseFamily = d.houseFamily
  lastHouse : d'.lastHouse = d.lastHouse

/-- The command frame that a row stands for: its KIND code (R168), tag and payload; none for an event. -/
def commandFrame : Instr → Option Command
  | .identify tag p => some ⟨Kind.identify, tag, p⟩
  | .deviceReset tag p => some ⟨Kind.deviceReset, tag, p⟩
  | .channelConfig tag p => some ⟨Kind.channelConfig, tag, p⟩
  | .channelStart tag p => some ⟨Kind.channelStart, tag, p⟩
  | .channelStop tag p => some ⟨Kind.channelStop, tag, p⟩
  | .channelReset tag p => some ⟨Kind.channelReset, tag, p⟩
  | .channelStatus tag p => some ⟨Kind.channelStatus, tag, p⟩
  | .channelFreeze tag p => some ⟨Kind.channelFreeze, tag, p⟩
  | .profileWrite tag p => some ⟨Kind.profileWrite, tag, p⟩
  | .profileRead tag p => some ⟨Kind.profileRead, tag, p⟩
  | .profileErase tag p => some ⟨Kind.profileErase, tag, p⟩
  | .planStageClear tag p => some ⟨Kind.planStageClear, tag, p⟩
  | .planStageAdd tag p => some ⟨Kind.planStageAdd, tag, p⟩
  | .planCommit tag p => some ⟨Kind.planCommit, tag, p⟩
  | .planRead tag p => some ⟨Kind.planRead, tag, p⟩
  | .contextRefresh tag p => some ⟨Kind.contextRefresh, tag, p⟩
  | .historyFlush tag p => some ⟨Kind.historyFlush, tag, p⟩
  | .timingSelect tag p => some ⟨Kind.timingSelect, tag, p⟩
  | .droplogRead tag p => some ⟨Kind.droplogRead, tag, p⟩
  | .droplogClear tag p => some ⟨Kind.droplogClear, tag, p⟩
  | .droplogWatermark tag p => some ⟨Kind.droplogWatermark, tag, p⟩
  | .noticeLevel tag p => some ⟨Kind.noticeLevel, tag, p⟩
  | .noticeWithdraw tag p => some ⟨Kind.noticeWithdraw, tag, p⟩
  | .noticePoll tag p => some ⟨Kind.noticePoll, tag, p⟩
  | .cueConfig tag p => some ⟨Kind.cueConfig, tag, p⟩
  | .cueRead tag p => some ⟨Kind.cueRead, tag, p⟩
  | .cueSet tag p => some ⟨Kind.cueSet, tag, p⟩
  | .unknownKind kind tag p => some ⟨kind, tag, p⟩
  | .fieldStart _ _ _ => none
  | .lineArrival _ _ _ => none
  | .fieldEnd _ _ => none
  | .fieldTimeoutExpiry _ _ => none
  | .reconstructionCompletion _ _ => none
  | .outputFrameStart _ _ => none
  | .houseFrameStart _ => none
  | .houseFamilyTimeout _ => none
  | .referenceLost _ _ => none
  | .priorReferenceLost _ _ => none
  | .acquisitionWindowEnd _ _ => none
  | .receivedByte _ _ => none
  | .gapTimerExpiry _ => none
  | .uplinkMessageEnd _ => none
  | .cueLineEdge _ _ _ => none
  | .powerUp _ => none
  | .supplyGood _ _ _ => none
  | .resetPinAssert _ => none
  | .resetPinRelease _ _ _ => none
  | .startingEnd _ => none
  | .powerFailure _ => none

/-- The payload lengths that the layout of a kind allows (R168), for the assigned kinds but DEVICE_RESET, which is
carried out whatever its payload. -/
def layoutAllows (kind : Byte) (n : Nat) : Prop :=
  match kind.toNat with
  | 0x01 => n = 0
  | 0x10 => n = 6
  | 0x11 => n = 1
  | 0x12 => n = 1
  | 0x13 => n = 1
  | 0x14 => n = 1
  | 0x15 => n = 2
  | 0x20 => n = 27
  | 0x21 => n = 1
  | 0x22 => n = 1
  | 0x30 => n = 1
  | 0x31 => ∃ k, 1 ≤ k ∧ k ≤ 8 ∧ n = 1 + 10 * k
  | 0x32 => n = 1
  | 0x33 => n = 3
  | 0x40 => n = 2
  | 0x41 => n = 10
  | 0x42 => n = 2
  | 0x50 => n = 1
  | 0x51 => n = 0
  | 0x52 => n = 2
  | 0x60 => ∃ k, 1 ≤ k ∧ k ≤ 28 ∧ n = 2 * k
  | 0x61 => 1 ≤ n ∧ n ≤ 28
  | 0x62 => n = 0
  | 0x70 => n = 5
  | 0x71 => n = 0
  | 0x72 => n = 2
  | _ => False

/-- The first of a command's own checks that fails, with the status it refuses, for a payload of a length that the layout
of its kind allows (R153: these come before the tag and the operation slots).  A refresh, a flush and a timing select have
one more check, BUSY, which comes after those. -/
def Device.ownCheck (d : Device) (f : Command) : Option Status :=
  let b := byteAt f.payload
  let range := fun bad : Bool => if bad then some Status.range else none
  let chanAt := fun (n : Nat) (rest : Chan → Option Status) => if h : n < 4 then rest ⟨n, h⟩ else some .range
  let channel := chanAt (b 0)
  match f.kind.toNat with
  | 0x10 => channel fun c =>
    if 1 < b 1 ∨ 31 < b 2 ∨ 1 < b 5 then some .range
    else if (d.chan c).state ≠ .off ∧ (d.chan c).state ≠ .ready then some .state
    else none
  | 0x11 => channel fun c => if (d.chan c).state ≠ .ready then some .state else none
  | 0x12 => channel fun c => if (d.chan c).state ≠ .running ∧ (d.chan c).state ≠ .holding then some .state else none
  | 0x13 => channel fun _ => none
  | 0x14 => channel fun _ => none
  | 0x15 => channel fun _ => range (1 < b 1)
  | 0x20 => range (b 0 = 0 || 31 < b 0 || (profileAt f.payload 1).isNone)
  | 0x21 => range (31 < b 0)
  | 0x22 => range (b 0 = 0 || 31 < b 0)
  | 0x30 => channel fun c => if d.isPending .commit c then some .busy else none
  | 0x31 => channel fun c =>
    if d.isPending .commit c then some .busy
    else
      match stageEntry (d.chan c).settings.system (d.chan c).reader.staged (entryAt f.payload 1) with
      | .error st => some st
      | .ok _ => none
  | 0x32 => channel fun c => if d.isPending .commit c then some .busy else none
  | 0x33 => channel fun c =>
    let plan := if b 1 = 0 then (d.chan c).reader.committed else (d.chan c).reader.staged
    range (1 < b 1 || plan.entries.length < b 2)
  | 0x40 => range (2 < b 0 || (b 0 = 1 && 31 < b 1) || (b 0 = 0 && 3 < b 1))
  | 0x41 =>
    if b 0 = 2 then none
    else if b 0 = 1 ∨ 3 < b 0 then some .range
    else chanAt (b 1) fun c =>
      let w := wordAt f.payload
      let odd := w 2 % 2 = 1 || w 4 % 2 = 1 || w 6 % 2 = 1 || w 8 % 2 = 1
      range (b 0 = 3 && (odd || w 6 = 0 || w 8 = 0 || 720 < w 2 + w 6 ||
        (d.chan c).settings.system.frameLines < w 4 + w 8))
  | 0x42 => channel fun _ => range (2 < b 1)
  | 0x50 => range (b 0 = 0)
  | 0x52 => range (b 0 = 0 && b 1 = 0)
  | 0x60 => range ((pairsOf f.payload).any fun q => q.1.toNat = 0 || 28 < q.1.toNat || 7 < q.2.toNat)
  | 0x61 => range (f.payload.any fun n => n.toNat = 0 || 28 < n.toNat)
  | 0x70 =>
    if 7 < b 0 ∨ 5 < b 1 ∨ (1 ≤ b 1 ∧ b 1 ≤ 4 ∧ 3 < b 2) ∨ (b 1 = 5 ∧ (b 2 = 0 ∨ 7 < b 2)) ∨ 1 < b 3 ∨ 1 < b 4 then
      some .range
    else if (b 1 = 1 ∨ b 1 = 2) ∧ b 3 = 0 then some .needsInput
    else none
  | _ => none

/-! ## A channel with its pending work settled -/

/-- The scope that a flush pending on a channel asked for (R102, R154). -/
def Device.flushPending (d : Device) (c : Chan) : Option FlushScope :=
  match d.pendingOp .flush c with
  | some ⟨_, .flush asked, _, _⟩ => some asked
  | _ => none

/-- A tracker after a reload took the context from one copy to another (R45, R82): a change of mode sets the state of the
new mode at a forced phase and keeps the history and the counter; anything else leaves the tracker. -/
def Tracker.told (t : Tracker) (before after : Option Context) (phase : Option ForcedPhase) : Tracker :=
  match before, after with
  | some b, some a =>
    if b.params.mode = a.params.mode then t else { t with cadence := forcedState a.params.mode phase }
  | _, _ => t

/-- A channel on which a flush of a scope has been performed (R101, R104): as WINDOW it sets the window memory; as
CHANNEL it marks the ring stale, makes the window memory absent and clears the tracker. -/
def Channel.flushed (ch : Channel) (asked : FlushScope) : Channel :=
  match flushWindow asked ch.tracker.cadence with
  | some r => { ch with recon := { ch.recon with windowMemory := some ⟨r, 2⟩ } }
  | none =>
    { ch with
      intake := { ch.intake with ring := ch.intake.ring.map fun f => { f with stale := true } }
      recon := { ch.recon with windowMemory := none }
      tracker := ch.tracker.cleared }

/-- A channel as it leaves RUNNING, with the commit, the refresh and the flush that are pending on it in `d` settled in
that order (R34, R49, R105, R155): the plans are swapped, the context reloads with the id it asked for, the tracker is
told of a change of mode, and the flush is performed. -/
def Channel.settled (ch : Channel) (d : Device) (c : Chan) : Channel :=
  let reader := if d.isPending .commit c then ch.reader.swap else ch.reader
  let context :=
    if d.isPending .refresh c then ch.context.map fun x => reloadContext d.profiles ch.settings x.requested
    else ch.context
  let ch := { ch with reader := reader, context := context, tracker := ch.tracker.told ch.context context none }
  match d.flushPending c with
  | some asked => ch.flushed asked
  | none => ch

/-- A tracker that goes from one value to another raises CADENCE with the reason when its state's name changes (R87). -/
def Device.cadenceTold (c : Chan) (before after : Tracker) (reason : CadenceReason) (u : Device) : Device :=
  if before.cadence.code = after.cadence.code then u else u.raise (.cadence c) (.cadence after.cadence reason)

/-- The work of the operation of a kind that is pending on a channel in `d`, if there is one, is finished for that
channel in `u` (R152, R155). -/
def Device.endsPending (d : Device) (k : OpName) (c : Chan) (performed : Option FlushDone) (result : OpResult)
    (u : Device) : Device :=
  match d.pendingOp k c with
  | some o => u.settleOp o.tag c .done performed result
  | none => u

/-- The scope that a flush is performed with on a channel (R104). -/
def Channel.flushScope (ch : Channel) (asked : FlushScope) : FlushDone :=
  if (flushWindow asked ch.tracker.cadence).isSome then .window else .channel

/-- The notices and the replies of the settling that `Channel.settled` says, in order: the commit's reply with the number
of entries committed, CADENCE where the refresh changes the state's name and the refresh's reply, CADENCE where the flush
does and the flush's reply (R34, R49, R82, R84, R105, R155). -/
def Channel.settling (ch : Channel) (d : Device) (c : Chan) (u : Device) : Device :=
  let context :=
    if d.isPending .refresh c then ch.context.map fun x => reloadContext d.profiles ch.settings x.requested
    else ch.context
  let told := { ch with tracker := ch.tracker.told ch.context context none }
  let u := d.endsPending .commit c none (.committed ch.reader.staged.entries.length) u
  let u := d.endsPending .refresh c none .none (u.cadenceTold c ch.tracker told.tracker .forced)
  match d.flushPending c with
  | some asked =>
    d.endsPending .flush c (some (told.flushScope asked)) .none
      (u.cadenceTold c told.tracker (told.flushed asked).tracker .flush)
  | none => u

/-! ## Reference frame starts -/

/-- What a reference frame start of a source, `interval` after the one before it, makes of a generator, and whether the
half-period guard is then asked for an output frame start (R126, R128 to R130).  LOCKED to the source keeps an interval
within tolerance; HOLDOVER of it becomes an AUTOMATIC acquisition with a run of one; an acquisition of it counts the run,
and the eighth in a row declares lock; a prior state LOCKED to it is followed as LOCKED is; anything else stays. -/
def Generator.referred (g : Generator) (y : System) (src : RefSource) (interval : Option Ticks) (now : Ticks) :
    Generator × Bool :=
  let within := interval.any fun i => decide (y.bandLow ≤ i ∧ i ≤ y.bandHigh)
  match g.state with
  | .settled .free => (g, false)
  | .settled (.locked s) => if s = src then ({ g with kept := if within then interval else g.kept }, true) else (g, false)
  | .settled (.holdover s) =>
    if s = src then ({ g with state := .acquire ⟨false, src, .holdover src, g.kept, 1, now, true⟩ }, false) else (g, false)
  | .acquire a =>
    let follows := decide (a.prior = .locked src)
    let a' := if follows && within then { a with priorKept := interval } else a
    if a.target = src then
      let run := if a.seen && within then a.run + 1 else 1
      if 8 ≤ run then ({ g with state := .settled (.locked src), kept := interval }, true)
      else ({ g with state := .acquire { a' with run := run, seen := true } }, follows)
    else ({ g with state := .acquire a' }, follows)

/-! ## A channel that has lost its input or its run -/

/-- The ring without the field in intake, which stands last in it while there is one (R1, R16). -/
def Intake.keptRing (i : Intake) : List Slot := if i.field.isSome then i.ring.dropLast else i.ring

/-- The dropout records that are open, in the order they were opened (R57, R59). -/
def Intake.openRecords (i : Intake) : List DropRecord := (i.field.map (·.openRecords)).getD []

/-- What the dropout log holds once records have been handed to it in order: those that find a place join it, and the
rest set the overflow flag (R62). -/
def Device.Logged (d : Device) (rs : List DropRecord) (d' : Device) : Prop :=
  d'.dropLog = d.dropLog ++ rs.take (256 - d.dropLog.length) ∧
  d'.overflow = (d.overflow || decide (256 - d.dropLog.length < rs.length))

/-- A tracker that has been cleared: an AUTO state becomes SEEK, a forced one keeps its phase, and the history and the
counter begin again (R83 to R85). -/
def Tracker.restarted (t : Tracker) : Tracker :=
  { cadence := match t.cadence with
      | .forcedVideo => .forcedVideo
      | .forced22 p => .forced22 p
      | .forced32 p => .forced32 p
      | _ => .seek
    history := []
    unusable := 0 }

/-- A channel at a loss of its input, before what is pending on it is settled (R16): the field in intake is discarded,
the last kept field is rebuilt unless its reconstruction has begun and then stays in the ring, stale and alone, the
tracker is cleared, and the channel is HOLDING with the hold count 0. -/
def Channel.lost (ch : Channel) (now : Ticks) (input : InputCond) : Channel :=
  let kept := ch.intake.keptRing
  let rebuilt := kept.getLast?.filter fun p => decide (ch.recon.lastBegun ≠ some p.seq)
  { ch with
    state := .holding
    intake :=
      { ch.intake with
        field := none
        ring := (rebuilt.map fun p => { p with stale := true }).toList
        prevIdentity := none
        discard := false
        timeout := none
        input := input }
    tracker := ch.tracker.restarted
    recon := match rebuilt with
      | none => ch.recon
      | some p =>
        { ch.recon with
          jobs := ch.recon.jobs ++ [⟨kept.dropLast.dropLast.getLast?, kept.dropLast.getLast?, p, none, none⟩]
          workStart := if ch.recon.jobs = [] then now else ch.recon.workStart
          lastBegun := some p.seq }
    sync := { ch.sync with hold := 0 } }

/-! ## Bounds of the queues and tables -/

/-- The command FIFO, the operations table and the reply queue keep their places, and the replies held with the
operations in flight are at most eight (R152, R161, R162, R164). -/
def Device.FlowBound (d : Device) : Prop :=
  d.fifo.length ≤ Config.fifoDepth ∧ d.ops.length ≤ Config.operationSlots ∧
  d.ops.length + d.replies.length ≤ Config.replyDepth

/-- The dropout log holds at most 256 records, and the watermark is 1 to 256 (R62, R63). -/
def Device.LogBound (d : Device) : Prop :=
  d.dropLog.length ≤ Config.logDepth ∧ 1 ≤ d.watermark ∧ d.watermark ≤ Config.logDepth

/-- A window-stale rectangle has a remaining count of 1 or 2 (R3, R101). -/
def WindowMark.Bound (w : WindowMark) : Prop := w.remaining = 1 ∨ w.remaining = 2

/-- At most eight records are opened in one field, and the open ones are among them (R59). -/
def InField.Bound (f : InField) : Prop :=
  f.openRecords.length ≤ f.opened ∧ f.opened ≤ Config.recordsPerField

/-- The bounds of a channel: the history ring (R3), the window marks (R101), the field in intake (R59), the signature
history and the unusable-run counter (R73), the queue, the counts and the hold count (R133), and the hold limit and the
default profile (R141). -/
structure Channel.Bound (ch : Channel) : Prop where
  ring : ch.intake.ring.length ≤ Config.ringDepth
  slotWindows : ∀ s ∈ ch.intake.ring, ∀ w, s.window = some w → w.Bound
  windowMemory : ∀ w, ch.recon.windowMemory = some w → w.Bound
  field : ∀ f, ch.intake.field = some f → f.Bound
  history : ch.tracker.history.length ≤ Config.signatureDepth
  unusable : ch.tracker.unusable ≤ 3
  queue : ch.sync.queue.length ≤ Config.queueDepth
  repeats : ch.sync.repeats ≤ Config.countMax
  drops : ch.sync.drops ≤ Config.countMax
  hold : ch.sync.hold ≤ Config.holdMax
  holdLimit : ch.settings.holdLimit ≤ Config.holdMax
  defaultProfile : ch.settings.defaultProfile ≤ 31

/-- Every channel keeps its bounds. -/
def Device.ChannelBound (d : Device) : Prop := ∀ c, (d.chan c).Bound

/-! ## Plans -/

/-- A plan as R27 keeps it: at most 64 entries, none of them reversed, in strictly ascending order without overlap, and a
base exactly when there is an entry. -/
structure Plan.Ordered (p : Plan) : Prop where
  length : p.entries.length ≤ Config.planDepth
  base : p.base = none ↔ p.entries = []
  forward : ∀ e ∈ p.entries, e.startCount ≤ e.endCount
  ascending : p.entries.Pairwise fun a b => a.endCount < b.startCount

/-- Both plans of every channel are as R27 keeps them. -/
def Device.PlansOrdered (d : Device) : Prop :=
  ∀ c, (d.chan c).reader.committed.Ordered ∧ (d.chan c).reader.staged.Ordered

/-! ## Output timing -/

/-- What R124 and R129 say of a generator's parts: LOCKED and HOLDOVER have a kept period, and so has an acquisition from
them; a run count is at most 8; an AUTOMATIC acquisition came from HOLDOVER of its target. -/
def Generator.Fits (g : Generator) : Prop :=
  match g.state with
  | .settled .free => True
  | .settled (.locked _) => g.kept.isSome
  | .settled (.holdover _) => g.kept.isSome
  | .acquire a =>
    a.run ≤ 8 ∧ (a.prior ≠ .free → a.priorKept.isSome) ∧ (a.commanded = false → a.prior = .holdover a.target)

/-- Every generator's parts go together. -/
def Device.TimingFits (d : Device) : Prop := ∀ c, (d.chan c).gen.Fits

/-! ## Operations in flight -/

/-- No two operations carry the same tag, and each has a target whose flag is clear (R152). -/
def Device.OpsDistinct (d : Device) : Prop :=
  (d.ops.map (·.tag)).Nodup ∧ ∀ o ∈ d.ops, o.complete = false

/-- The operations of a kind that are pending on a channel. -/
def Device.pendingOps (d : Device) (k : OpName) (c : Chan) : List Operation :=
  d.ops.filter fun o => decide (o.kind.name = k) && o.pendingOn c

/-- An acquisition that TIMING_SELECT began (R124). -/
def TimingState.Commanded : TimingState → Prop
  | .settled _ => False
  | .acquire a => a.commanded = true

/-- Where an operation of each kind can be pending (R154): commits, refreshes and flushes on a RUNNING channel, a stop on
a STOPPING one, a timing select in a COMMANDED acquisition. -/
def Channel.AllowsPending (ch : Channel) : OpName → Prop
  | .commit => ch.state = .running
  | .refresh => ch.state = .running
  | .flush => ch.state = .running
  | .stop => ch.state = .stopping
  | .timing => ch.gen.state.Commanded

/-- The operations table fits the channels (R152, R154): tags are distinct, no operation is complete, at most one
operation of a kind is pending on a channel, and only where R154 allows one. -/
def Device.OpsFit (d : Device) : Prop :=
  d.OpsDistinct ∧
  ∀ k c, (d.pendingOps k c).length ≤ 1 ∧ (d.isPending k c = true → (d.chan c).AllowsPending k)

/-! ## The legal output range -/

/-- A sample within the legal output range, 4 to 1019 (introduction 1.2, R122). -/
def LegalSample (v : Sample) : Prop := 4 ≤ v.toNat ∧ v.toNat ≤ 1019

/-- A border colour within the legal range (R38). -/
def Colour.Legal (c : Colour) : Prop := LegalSample c.y ∧ LegalSample c.cb ∧ LegalSample c.cr

/-- Every sample of a row within the legal range. -/
def OutRow.Legal (r : OutRow) : Prop :=
  (∀ v ∈ r.y.toList, LegalSample v) ∧ (∀ v ∈ r.cb.toList, LegalSample v) ∧ ∀ v ∈ r.cr.toList, LegalSample v

/-- Every sample of a raster within the legal range. -/
def LegalRaster (r : Raster) : Prop := ∀ row ∈ r.toList, row.Legal

/-- A channel whose border colours, unread frames and on-air frame are within the legal range. -/
structure Channel.LegalOutput (ch : Channel) : Prop where
  context : ∀ x, ch.context = some x → x.params.border.Legal
  slots : ∀ s ∈ ch.intake.ring, s.context.params.border.Legal
  jobs : ∀ v ∈ ch.recon.jobs, v.field.context.params.border.Legal
  queue : ∀ p ∈ ch.sync.queue, LegalRaster p.raster
  onAir : LegalRaster ch.sync.onAir.raster

/-- Everything the outputs send or can come to send is within the legal range (R122), with the border colours of the
profile table, which R38 clamps. -/
def Device.LegalOutput (d : Device) : Prop :=
  (∀ p ∈ d.profiles.toList, ∀ q, p = some q → q.border.Legal) ∧ ∀ c, (d.chan c).LegalOutput

end Sys2Proof.Machine
end

