-- ==== Sys2Proof/Certificates/Slice0/Obligations.lean ====
section
/-! DEFINITION. The statements put to the provers.  Each says in its docstring which rule of spec/ it formalises, or which
entry of the assumption log it rests on. -/

open Sys2Proof Sys2Proof.Machine

/-! ## The machine -/

/-- A step takes the command at the front of the queue and runs `exec` on it with the queue's rest. -/
def Obligations.StepRunsFrontCommand : Prop :=
  ∀ (i : Instr) (s : State), step { s with pending := i :: s.pending } = exec i s

/-- MODEL'S CHOICE (log 1): on an empty queue one tick of the 27 MHz reference passes.  Every timer that has run out by
then fires, once each unless an event of that tick stops or restarts it before; the order among them is free (log 4), and
one that an event of the tick has made run out fires at the next (log 28).
What a timer does when it fires is what its row does at that reading, and while none has run out the tick moves the clock
and nothing else.  When a timer has run out: STARTING after 40 ms (R182), the gap timer after 50 ms outside HUNT (R159),
a message of n bytes after 10n bit times (R165), the house timeout after 810,000 ticks (R125), the field timeout of a
RUNNING channel at its deadline (R15; its length is log 3's), a reconstruction within 0.8 of a field period of its start
(R90; log 22), the output frame start one nominal period after the last in FREE and one kept period in HOLDOVER, in
ACQUIRE by the prior state, and never by the clock in LOCKED (R126; log 26), the reference loss after 1.5 periods of
silence in LOCKED or of a LOCKED prior state (R129, R130; log 19), and the acquisition window after 64 periods (R129). -/
def Obligations.EmptyQueueTicks : Prop :=
  ∀ s : State, s.pending = [] →
    let d : Device := { s.dev with now := s.dev.now + 1 }
    let row : Timer → Instr := fun k => match k with
      | .starting => .startingEnd d.now
      | .gap => .gapTimerExpiry d.now
      | .uplink => .uplinkMessageEnd d.now
      | .house => .houseFamilyTimeout d.now
      | .fieldTimeout c => .fieldTimeoutExpiry d.now c
      | .reconstruction c => .reconstructionCompletion d.now c
      | .outputFrame c => .outputFrameStart d.now c
      | .reference c => .referenceLost d.now c
      | .priorReference c => .priorReferenceLost d.now c
      | .acquisition c => .acquisitionWindowEnd d.now c
    let silent := fun (c : Chan) (src : RefSource) =>
      ∀ last, d.lastReference c src = some last → last + (d.chan c).settings.system.lossTime ≤ d.now
    ((∀ k, d.due k = false) → step s = .next { s with dev := d }) ∧
    (∃ order : List Timer, order.Nodup ∧ (∀ k, k ∈ order ↔ d.due k = true) ∧
      step s = .next { s with dev := order.foldl Device.fireIfDue d }) ∧
    (∀ (u : Device) k, u.due k = false → u.fireIfDue k = u) ∧
    (∀ (u : Device) k, u.now = d.now → u.phase ≠ .held → u.due k = true →
      exec (row k) { s with dev := u } = .next { s with dev := u.fireIfDue k }) ∧
    (d.due .starting = true ↔ ∃ since, d.phase = .starting since ∧ since + 1080000 ≤ d.now) ∧
    (d.due .gap = true ↔ d.phase = .operating ∧ d.receiver ≠ .hunt ∧ d.gapSince + 1350000 ≤ d.now) ∧
    (d.due .uplink = true ↔ ∃ frame since, d.uplink = .sending frame since ∧
      10 * frame.length * 27000000 ≤ (d.now - since) * d.lineRate) ∧
    (d.due .house = true ↔ ∃ last, d.lastHouse = some last ∧ last + 810000 ≤ d.now) ∧
    ∀ c : Chan,
      let ch := d.chan c
      let y := ch.settings.system
      let g := ch.gen
      (d.due (.fieldTimeout c) = true ↔
        ch.state = .running ∧ ∃ deadline, ch.intake.timeout = some deadline ∧ deadline ≤ d.now) ∧
      (d.due (.reconstruction c) = true → ch.recon.jobs ≠ []) ∧
      (ch.recon.jobs ≠ [] → ch.recon.workStart + y.workTime ≤ d.now → d.due (.reconstruction c) = true) ∧
      (d.phase ≠ .held →
        (g.state = .settled .free → (d.due (.outputFrame c) = true ↔ g.lastOut + y.period ≤ d.now)) ∧
        (∀ src, g.state = .settled (.holdover src) →
          (d.due (.outputFrame c) = true ↔ g.lastOut + g.kept.getD y.period ≤ d.now)) ∧
        (∀ src, g.state = .settled (.locked src) → d.due (.outputFrame c) = false) ∧
        (∀ a, g.state = .acquire a →
          (a.prior = .free → (d.due (.outputFrame c) = true ↔ g.lastOut + y.period ≤ d.now)) ∧
          (∀ src, a.prior = .holdover src →
            (d.due (.outputFrame c) = true ↔ g.lastOut + a.priorKept.getD y.period ≤ d.now)) ∧
          (∀ src, a.prior = .locked src → d.due (.outputFrame c) = false))) ∧
      (d.due (.reference c) = true ↔ ∃ src, g.state = .settled (.locked src) ∧ silent c src) ∧
      (d.due (.priorReference c) = true ↔ ∃ a src, g.state = .acquire a ∧ a.prior = .locked src ∧ silent c src) ∧
      (d.due (.acquisition c) = true ↔ ∃ a, g.state = .acquire a ∧ a.began + y.window ≤ d.now)

/-- Section 12.5's table of the device-wide state after a device reset, held by the reset state, whose cause is that
of the power-up (R181). That the reset state is the one in which the power-up reset has ended is the model's reading
(log 24). -/
def Obligations.ResetLeavesTable : Prop :=
  (∀ c, (State.reset.dev.chan c).state = .off ∧ (State.reset.dev.chan c).settings = ⟨.s625, 0, 50, true⟩ ∧
    (State.reset.dev.chan c).gen.state = .settled .free ∧ (State.reset.dev.chan c).sync.onAir = .black) ∧
  (∀ k : Fin 31, State.reset.dev.profiles[k] = none) ∧
  State.reset.dev.dropLog = [] ∧ State.reset.dev.overflow = false ∧ State.reset.dev.watermark = 64 ∧
  State.reset.dev.houseFamily = .none ∧
  State.reset.dev.ops = [] ∧ State.reset.dev.fifo = [] ∧ State.reset.dev.replies = [] ∧
  (∀ i : Fin 28, State.reset.dev.notices[i].raised = none) ∧
  (State.reset.dev.notices.toList.map fun r => r.level.val) =
    [6, 5, 7, 7, 7, 7, 6, 6, 6, 6, 4, 4, 4, 4, 3, 3, 3, 3, 2, 2, 2, 2, 1, 1, 1, 1, 3, 0] ∧
  (∀ n, State.reset.dev.cue n = ⟨.general, false, .high, false⟩) ∧
  State.reset.dev.receiver = .hunt ∧ State.reset.dev.noiseRun = false ∧ State.reset.dev.cause = .power

/-- Every invariant below holds right after reset. -/
def Obligations.ResetMeetsInvariants : Prop :=
  State.reset.dev.FlowBound ∧ State.reset.dev.LogBound ∧ State.reset.dev.ChannelBound ∧
  State.reset.dev.PlansOrdered ∧ State.reset.dev.TimingFits ∧ State.reset.dev.OpsFit ∧ State.reset.dev.LegalOutput

/-! ## Invariants that every step keeps -/

/-- R62, R63, R152, R161, R162, R164: no step puts a fifth frame into the command FIFO, a fifth operation into the
table, a ninth reply-or-operation beside the replies held, or a 257th record into the dropout log. -/
def Obligations.StepKeepsQueueBounds : Prop :=
  ∀ s t : State, s.dev.FlowBound → s.dev.LogBound → step s = .next t → t.dev.FlowBound ∧ t.dev.LogBound

/-- R3, R59, R73, R101, R133, R141: every bound of every channel. -/
def Obligations.StepKeepsChannelBound : Prop :=
  ∀ s t : State, s.dev.ChannelBound → step s = .next t → t.dev.ChannelBound

/-- R27: the checks keep each plan in strictly ascending, non-overlapping order and within 64 entries, through every
command, swap and reset. -/
def Obligations.StepKeepsPlansOrdered : Prop :=
  ∀ s t : State, s.dev.PlansOrdered → step s = .next t → t.dev.PlansOrdered

/-- R124, R129: the parts of every generator go together. -/
def Obligations.StepKeepsTimingFits : Prop :=
  ∀ s t : State, s.dev.TimingFits → step s = .next t → t.dev.TimingFits

/-- R152, R154: distinct tags, no complete operation left in flight, at most one operation of a kind pending on a
channel, and each only where R154 allows it. -/
def Obligations.StepKeepsOpsFit : Prop :=
  ∀ s t : State, s.dev.OpsFit → step s = .next t → t.dev.OpsFit

/-- R122: whatever happens, everything that any output sends or can come to send stays within 4 to 1019. -/
def Obligations.StepKeepsLegalOutput : Prop :=
  ∀ s t : State, s.dev.LegalOutput → step s = .next t → t.dev.LegalOutput

/-! ## The link -/

/-- R157, R158, R161: a receiver in HUNT that is given the bytes of a frame the part itself would build, payload of 0 to
248 bytes, hands exactly that KIND, TAG and payload to the command FIFO and is in HUNT again with the noise-run flag
clear. -/
def Obligations.ReceiverReadsBuiltFrames : Prop :=
  ∀ (d : Device) (kind tag : Byte) (p : List Byte), d.receiver = .hunt → p.length ≤ 248 →
    (frameBytes kind tag p).foldl (fun d b => d.receiveByte b) d =
      ({ d with noiseRun := false, receiver := .hunt, gapSince := d.now } : Device).acceptFrame ⟨kind, tag, p⟩

/-- R158 to R161 past STARTING with no frame waiting: by the receiver's state, a received byte begins a frame, is noise,
is a good or bad LEN, is held, or is judged as CHECK; outside HUNT the gap timer expires 50 ms, 1,350,000 ticks, after the
last byte and abandons the frame, and earlier, or in HUNT, its expiry does not happen.  That a byte past that moment with
no expiry taken before it is handled in the state it finds is the model's choice (log 27). -/
def Obligations.ReceiverByState : Prop :=
  ∀ (s : State) (t : Ticks) (b : Byte), s.dev.phase = .operating → s.dev.fifo = [] →
    let d := s.dev.arrive t
    (d.receiver = .hunt → b = 0xA5 →
      exec (.receivedByte t b) s =
        .next { s with dev := { d with noiseRun := false, receiver := .length, gapSince := d.now } }) ∧
    (d.receiver = .hunt → b ≠ 0xA5 → d.noiseRun = true → exec (.receivedByte t b) s = .next { s with dev := d }) ∧
    (d.receiver = .hunt → b ≠ 0xA5 → d.noiseRun = false →
      exec (.receivedByte t b) s =
        .next { s with dev := ({ d with noiseRun := true } : Device).raise .linkFault (.linkFault .noise) }) ∧
    (d.receiver = .length → 2 ≤ b.toNat → b.toNat ≤ 250 →
      exec (.receivedByte t b) s =
        .next { s with dev := { d with receiver := .body b.toNat [], gapSince := d.now } }) ∧
    (d.receiver = .length → b.toNat < 2 ∨ 250 < b.toNat →
      exec (.receivedByte t b) s =
        .next { s with
          dev := ({ d with receiver := .hunt, gapSince := d.now } : Device).raise .linkFault (.linkFault .length) }) ∧
    (∀ len held, d.receiver = .body len held → held.length + 1 < len →
      exec (.receivedByte t b) s =
        .next { s with dev := { d with receiver := .body len (held ++ [b]), gapSince := d.now } }) ∧
    (∀ len held, d.receiver = .body len held → held.length + 1 = len →
      exec (.receivedByte t b) s =
        .next { s with dev := { d with receiver := .check len (held ++ [b]), gapSince := d.now } }) ∧
    (∀ len held, d.receiver = .check len held → (len + (held.map BitVec.toNat).sum + b.toNat) % 256 ≠ 0 →
      exec (.receivedByte t b) s =
        .next { s with
          dev := ({ d with receiver := .hunt, gapSince := d.now } : Device).raise .linkFault (.linkFault .checksum) }) ∧
    (∀ len kind tag p, d.receiver = .check len (kind :: tag :: p) →
      (len + kind.toNat + tag.toNat + (p.map BitVec.toNat).sum + b.toNat) % 256 = 0 →
      exec (.receivedByte t b) s =
        .next { s with
          dev := (({ d with receiver := .hunt, gapSince := d.now } : Device).acceptFrame ⟨kind, tag, p⟩).settle }) ∧
    (d.receiver = .hunt ∨ d.now < d.gapSince + 1350000 → exec (.gapTimerExpiry t) s = .next { s with dev := d }) ∧
    (d.receiver ≠ .hunt → d.gapSince + 1350000 ≤ d.now → exec (.gapTimerExpiry t) s =
      .next { s with dev := ({ d with receiver := .hunt } : Device).raise .linkFault (.linkFault .gap) })

/-- R161, R162, R165: when a message has been sent, which takes 10n bit times for its n bytes (log 14), the oldest reply
begins at once and leaves the queue; without a reply the source that the arbiter names begins and is lowered; without
either the uplink is IDLE; earlier its end does not happen.  The reply that leaves makes a place: where the replies held
and the operations in flight were fewer than eight without it, the executor takes the oldest waiting frame, and after it
those the condition of R162 lets it take.  While they are eight or more, no frame is taken: one that a command row or the
receiver delivers is appended to the command FIFO while that holds fewer than four, and otherwise discarded with an
OVERRUN fault. -/
def Obligations.MessageEndChoosesNext : Prop :=
  ∀ (s : State) (t : Ticks) (frame : List Byte) (since : Ticks), s.dev.phase = .operating →
    s.dev.uplink = .sending frame since →
    let d := s.dev.arrive t
    let ended := 10 * frame.length * 27000000 ≤ (d.now - since) * d.lineRate
    let full := 8 ≤ s.dev.ops.length + s.dev.replies.length
    (¬ ended → s.dev.fifo = [] → exec (.uplinkMessageEnd t) s = .next { s with dev := d }) ∧
    (ended → s.dev.fifo = [] →
      (∀ r rest, d.replies = r :: rest → exec (.uplinkMessageEnd t) s = .next { s with
        dev := { d with
          uplink := .sending (frameBytes 0xC0 r.tag (r.status.code :: r.kind :: r.results)) d.now
          replies := rest } }) ∧
      (∀ (i : Fin 28) detail, d.replies = [] → namedSource d.notices = some i → d.notices[i].raised = some detail →
        exec (.uplinkMessageEnd t) s =
          .next { s with
            dev := { d with
              uplink := .sending
                (frameBytes 0xC1 0 (noticeEntry (i.val + 1) d.notices[i].level d.notices[i].superseded detail)) d.now
              notices := d.notices.set i ⟨d.notices[i].level, none, false⟩ } }) ∧
      (d.replies = [] → namedSource d.notices = none →
        exec (.uplinkMessageEnd t) s = .next { s with dev := { d with uplink := .idle } })) ∧
    (∀ r rest f fs, ended → s.dev.replies = r :: rest → s.dev.fifo = f :: fs →
      s.dev.ops.length + rest.length < 8 →
      exec (.uplinkMessageEnd t) s = .next { s with
        dev := (({ d with
          uplink := .sending (frameBytes 0xC0 r.tag (r.status.code :: r.kind :: r.results)) d.now
          replies := rest
          fifo := fs } : Device).takeFrame f).execute fs.length }) ∧
    (∀ (u : Device) f fs, u.fifo = f :: fs →
      (u.ops.length + u.replies.length < 8 →
        u.settle = (({ u with fifo := fs } : Device).takeFrame f).execute fs.length) ∧
      (8 ≤ u.ops.length + u.replies.length → u.settle = u)) ∧
    (∀ i f, full → commandFrame i = some f →
      (s.dev.fifo.length < 4 → exec i s = .next { s with dev := { s.dev with fifo := s.dev.fifo ++ [f] } }) ∧
      (4 ≤ s.dev.fifo.length → exec i s = .next { s with dev := s.dev.raise .linkFault (.linkFault .overrun) })) ∧
    (∀ (b : Byte) len kind tag p, full → s.dev.receiver = .check len (kind :: tag :: p) →
      (len + kind.toNat + tag.toNat + (p.map BitVec.toNat).sum + b.toNat) % 256 = 0 →
      let d' : Device := { d with receiver := .hunt, gapSince := d.now }
      (s.dev.fifo.length < 4 →
        exec (.receivedByte t b) s = .next { s with dev := { d' with fifo := s.dev.fifo ++ [⟨kind, tag, p⟩] } }) ∧
      (4 ≤ s.dev.fifo.length →
        exec (.receivedByte t b) s = .next { s with dev := d'.raise .linkFault (.linkFault .overrun) }))

/-- R171: the arbiter names a place exactly when its source is raised at a level above 0, no raised source has a higher
level, and none of a lower number has the same level. -/
def Obligations.ArbiterNamesHighestRaised : Prop :=
  ∀ (ns : Vector NoticeRecord 28) (i : Fin 28), namedSource ns = some i ↔
    ns[i].raised.isSome ∧ 0 < ns[i].level ∧
    ∀ j : Fin 28, ns[j].raised.isSome → ns[j].level ≤ ns[i].level ∧ (ns[j].level = ns[i].level → i ≤ j)

/-- R170: a raise of a source whose flag is clear sets it with the detail given and the superseded flag clear; a raise of
one that is raised replaces the detail and sets the superseded flag, but for CUE_EDGE, which gathers the masks; the level
and the other records stay.  An IDLE uplink then makes its choice (R165); nothing else of the part changes. -/
def Obligations.RaiseCoalesces : Prop :=
  ∀ (d : Device) (src : Source) (detail : Detail), ∃ ns : Vector NoticeRecord 28,
    d.raise src detail = ({ d with notices := ns } : Device).choose ∧
    (∀ i, i ≠ src.index → ns[i] = d.notices[i]) ∧
    ns[src.index].level = (d.notice src).level ∧
    ((d.notice src).raised = none → ns[src.index].raised = some detail ∧ ns[src.index].superseded = false) ∧
    (∀ old, (d.notice src).raised = some old →
      ns[src.index].superseded = true ∧
      (((∀ m l, detail ≠ .cueEdge m l) ∨ ∀ m l, old ≠ .cueEdge m l) → ns[src.index].raised = some detail) ∧
      (∀ m l m' l', old = .cueEdge m l → detail = .cueEdge m' l' →
        ns[src.index].raised = some (.cueEdge (m ||| m') l')))

/-- R163, R164, R165: a reply enters at the end of the reply queue; past the hello message an IDLE uplink begins the
oldest reply at that moment, with KIND 0xC0, the command's tag, the status, the kind answered and the result fields.
Nothing else of the part changes.  R152, R155: the work of an operation finished on a channel sets its done flag there,
with the scope performed and the result detail.  While another flag is clear the operation stays; otherwise its slot
becomes free and its reply enters with its tag: ABORTED when a flag is aborted, FAILED for a failed acquisition, otherwise
OK.  The result fields by kind (R32, R50, R106, R128, R129, R168): a commit's count of entries, a refresh's scope and
channels, a flush's targets, channels and scope performed on each, a timing select's reason, source and state, a stop's
none; of an aborted commit or timing select none. -/
def Obligations.ReplyEntersQueue : Prop :=
  ∀ d : Device,
    (∀ (tag kind : Byte) (st : Status) (rs : List Byte),
      (¬ (d.phase = .operating ∧ d.uplink = .idle) →
        d.answer tag kind st rs = { d with replies := d.replies ++ [⟨tag, st, kind, rs⟩] }) ∧
      (d.phase = .operating → d.uplink = .idle → d.replies = [] →
        d.answer tag kind st rs = { d with uplink := .sending (frameBytes 0xC0 tag (st.code :: kind :: rs)) d.now }) ∧
      (∀ r rest, d.phase = .operating → d.uplink = .idle → d.replies = r :: rest →
        d.answer tag kind st rs =
          { d with uplink := .sending r.frame d.now, replies := rest ++ [⟨tag, st, kind, rs⟩] })) ∧
    ∀ (c : Chan) (flag : DoneFlag) (performed : Option FlushDone) (result : OpResult) (before after : List Operation)
        (o : Operation), d.ops = before ++ o :: after → (∀ x ∈ before ++ after, x.tag ≠ o.tag) →
      let o' : Operation := { o with
        targets := o.targets.map fun t =>
          if t.chan = c ∧ t.flag = .clear then { t with flag := flag, performed := performed } else t
        result := if result = .none then o.result else result }
      let done := o'.targets.filter fun t => decide (t.flag = .done)
      let aborted := o'.targets.any fun t => decide (t.flag = .aborted)
      let failed : Bool := match o'.result with
        | .timing reason _ _ => decide (reason = .absent ∨ reason = .wrongFamily ∨ reason = .unstable)
        | _ => false
      let flushed := fun k : Chan => match done.find? fun t => decide (t.chan = k) with
        | some ⟨_, _, some .channel⟩ => 0x00
        | some ⟨_, _, some .window⟩ => 0x03
        | _ => (0xFF : Byte)
      let answered := fun (kind : Byte) (rs : List Byte) => ({ d with ops := before ++ after } : Device).answer o.tag kind
        (if aborted then .aborted else if failed then .failed else .ok) rs
      let ends := d.settleOp o.tag c flag performed result
      ((∃ t ∈ o'.targets, t.flag = .clear) → ends = { d with ops := before ++ o' :: after }) ∧
      ((∀ t ∈ o'.targets, t.flag ≠ .clear) → ends = match o.kind with
        | .stop => answered 0x12 []
        | .commit => answered 0x32 (match o'.result with
          | .committed n => if aborted then [] else byte1 n
          | _ => [])
        | .refresh scope => answered 0x40 [scope.code, chanSet (done.map (·.chan))]
        | .flush _ => answered 0x41
          ([chanSet (o.targets.map (·.chan)), chanSet (done.map (·.chan))] ++ ([0, 1, 2, 3] : List Chan).map flushed)
        | .timing => answered 0x42 (match o'.result with
          | .timing reason source state => if aborted then [] else [reason.code, source.code, state.code]
          | _ => []))

/-- R163, R168: a frame whose KIND is not an assigned command code, which is what an UNKNOWN_KIND row delivers, is
answered UNKNOWN with its own KIND echoed, whatever its tag and payload; a payload whose length the layout of its
kind does not allow is answered LENGTH. Nothing else changes. That a LENGTH refusal of PLAN_STAGE_ADD carries no
count is the model's reading (log 9). -/
def Obligations.UnknownAndLengthRefused : Prop :=
  ∀ (s : State) (i : Instr) (f : Command), s.dev.Ready → commandFrame i = some f →
    (f.kind ∉ Kind.assigned → exec i s = .next { s with dev := s.dev.answer f.tag f.kind .unknown [] }) ∧
    (f.kind ∈ Kind.assigned → f.kind ≠ Kind.deviceReset → ¬ layoutAllows f.kind f.payload.length →
      exec i s = .next { s with dev := s.dev.answer f.tag f.kind .length [] })

/-- R153, R163: the checks on a command whose kind is assigned and whose length its layout allows, in order, DEVICE_RESET
apart.  The first of its own checks that fails decides the refusal (`Device.ownCheck`); then a tag equal to that of an
operation in flight is refused TAG_IN_USE; then one of the five long commands, CHANNEL_STOP, PLAN_COMMIT, CONTEXT_REFRESH,
HISTORY_FLUSH and TIMING_SELECT, is refused BUSY while all four operation slots are in flight.  A refusal of PLAN_STAGE_ADD
on its own checks carries the count 0.  A refused command does nothing else, and whatever its length a command whose tag is
in use is answered with a status other than OK.  That the count goes with those refusals, and that of PLAN_STAGE_ADD the
check of the first entry alone comes before the tag, is the model's reading (log 9). -/
def Obligations.TagInUseNeverActs : Prop :=
  ∀ (s : State) (i : Instr) (f : Command), s.dev.Ready → commandFrame i = some f → f.kind ≠ Kind.deviceReset →
    let refused := fun (st : Status) (rs : List Byte) => exec i s = .next { s with dev := s.dev.answer f.tag f.kind st rs }
    let long := [Kind.channelStop, Kind.planCommit, Kind.contextRefresh, Kind.historyFlush, Kind.timingSelect]
    (f.kind ∈ Kind.assigned → layoutAllows f.kind f.payload.length →
      (∀ st, s.dev.ownCheck f = some st → refused st (if f.kind = Kind.planStageAdd then [0] else [])) ∧
      (s.dev.ownCheck f = none → s.dev.tagInUse f.tag = true → refused .tagInUse []) ∧
      (s.dev.ownCheck f = none → s.dev.tagInUse f.tag = false → f.kind ∈ long → s.dev.ops.length = 4 →
        refused .busy [])) ∧
    (s.dev.tagInUse f.tag = true → ∃ st rs, st ≠ .ok ∧ refused st rs)

/-! ## Commands on the device and its channels

Every statement below is about a command frame at a link that takes it at once, with a tag that is free; its payload is
written out from its operands by the layouts of R168. -/

/-- R166: IDENTIFY, in every state, answers OK with vendor, part, revision code and the six sizes, and changes nothing; a
tag that is in use is refused TAG_IN_USE. -/
def Obligations.IdentifyAnswers : Prop :=
  ∀ (s : State) (tag : Byte), s.dev.Ready →
    (s.dev.tagInUse tag = true →
      exec (.identify tag []) s = .next { s with dev := s.dev.answer tag 0x01 .tagInUse [] }) ∧
    (s.dev.tagInUse tag = false → exec (.identify tag []) s = .next { s with dev := (s.dev.answer tag 0x01 .ok
      [0x52, 0x69, 0x73, 0x74, 0x61, 0x6D, 0x6F, 0x00, 0x4F, 0x46, 0x52, 0x2D, 0x34, 0x34, 0x30, 0x00,
       0x01, 4, 31, 64, 1, 0, 4, 8]) })

/-- R163, R181, R182: DEVICE_RESET is carried out whatever its tag and payload and answers nothing: every block takes
its reset value, the straps are sampled, the cause is COMMAND, and the STARTING period begins. That the clock runs on
and the pins keep their levels is the model's choice (log 11, log 18). -/
def Obligations.DeviceResetCarriedOut : Prop :=
  ∀ (s : State) (tag : Byte) (p : List Byte), s.dev.Ready →
    exec (.deviceReset tag p) s = .next { s with
      dev := { Device.reset with
        now := s.dev.now
        phase := .starting s.dev.now
        supplyGood := s.dev.supplyGood
        pinAsserted := s.dev.pinAsserted
        strap1 := s.dev.strap1
        strap0 := s.dev.strap0
        lineRate :=
          if s.dev.strap1 then (if s.dev.strap0 then 2000000 else 921600)
          else (if s.dev.strap0 then 460800 else 115200)
        cause := .command
        chans := .replicate 4 (Channel.reset s.dev.now)
        cueOutside := s.dev.cueOutside } }

/-- R142: CHANNEL_CONFIG in OFF or READY that keeps the system replaces the four items at once, a hold limit above 250
stored as 250, makes the channel READY, changes nothing else, and answers the items as stored.  In any other state it is
refused STATE with nothing changed.  A channel above 3, a system or on/off code above 1 and a default profile above 31 are
refused RANGE. -/
def Obligations.ChannelConfigStoresItems : Prop :=
  ∀ (s : State) (tag : Byte) (c : Chan) (prof hold : Nat) (use : Bool), s.dev.Ready → s.dev.tagInUse tag = false →
    prof ≤ 31 → hold < 65536 →
    let ch := s.dev.chan c
    let p := [BitVec.ofNat 8 c.val, systemCode ch.settings.system] ++ byte1 prof ++ byte2 hold ++ [onOff use]
    (ch.state = .off ∨ ch.state = .ready →
      exec (.channelConfig tag p) s = .next { s with
        dev := (s.dev.setChan c
            { ch with state := .ready, settings := ⟨ch.settings.system, prof, min 250 hold, use⟩ }).answer tag 0x10 .ok
          ([systemCode ch.settings.system] ++ byte1 prof ++ byte2 (min 250 hold) ++ [onOff use]) }) ∧
    (ch.state ≠ .off → ch.state ≠ .ready →
      exec (.channelConfig tag p) s = .next { s with dev := s.dev.answer tag 0x10 .state [] }) ∧
    (∀ channel system profile hi lo code : Byte,
      3 < channel.toNat ∨ 1 < system.toNat ∨ 31 < profile.toNat ∨ 1 < code.toNat →
      exec (.channelConfig tag [channel, system, profile, hi, lo, code]) s =
        .next { s with dev := s.dev.answer tag 0x10 .range [] })

/-- R131, R142, R143: CHANNEL_CONFIG that changes the system leaves every block of the channel but its configuration, its
state and its output timing as it was, and the other channels untouched, and answers the items as stored.  FREE stays FREE;
LOCKED becomes HOLDOVER on the new nominal period, and TIMING is raised with that state and CONFIG; HOLDOVER takes the new
nominal period; an acquisition begins its run and its window again; of these none raises TIMING.  That the notice comes
before the reply is the model's choice (log 6). -/
def Obligations.SystemChangeReachesTiming : Prop :=
  ∀ (s : State) (tag : Byte) (c : Chan) (y : System) (prof hold : Nat) (use : Bool), s.dev.Ready →
    s.dev.tagInUse tag = false → prof ≤ 31 → hold < 65536 →
    (s.dev.chan c).state = .off ∨ (s.dev.chan c).state = .ready → (s.dev.chan c).settings.system ≠ y →
    let g := (s.dev.chan c).gen
    ∃ u g', exec (.channelConfig tag
        ([BitVec.ofNat 8 c.val, systemCode y] ++ byte1 prof ++ byte2 hold ++ [onOff use])) s = .next u ∧
      u.dev.chan c = { s.dev.chan c with state := .ready, settings := ⟨y, prof, min 250 hold, use⟩, gen := g' } ∧
      (let changed := s.dev.setChan c (u.dev.chan c)
      let raised := match g.state with
        | .settled (.locked src) => changed.raise (.timing c) (.timing src.source .holdover .config)
        | _ => changed
      u = { s with
        dev := raised.answer tag 0x10 .ok ([systemCode y] ++ byte1 prof ++ byte2 (min 250 hold) ++ [onOff use]) }) ∧
      Device.KeepsRest c s.dev u.dev ∧ u.dev.ops = s.dev.ops ∧ u.dev.dropLog = s.dev.dropLog ∧
      u.dev.overflow = s.dev.overflow ∧ g'.lastOut = g.lastOut ∧ g'.lastInput = g.lastInput ∧
      (g.state = .settled .free → g'.state = .settled .free) ∧
      (∀ src, g.state = .settled (.locked src) → g'.state = .settled (.holdover src) ∧ g'.kept = some y.period) ∧
      (∀ src, g.state = .settled (.holdover src) → g'.state = .settled (.holdover src) ∧ g'.kept = some y.period) ∧
      (∀ a, g.state = .acquire a → ∃ a', g'.state = .acquire a' ∧ a'.run = 0 ∧ a'.seen = false ∧
        a'.began = s.dev.now ∧ a'.target = a.target ∧ a'.commanded = a.commanded ∧
        ∀ src, a.prior = .locked src → a'.prior = .holdover src ∧ a'.priorKept = some y.period)

/-- R144: CHANNEL_START on a READY channel makes it RUNNING, each block at the value its chapter gives for the start of a
run; the plans, the on-air frame, the command freeze flag and the output timing are kept, and nothing of the other
channels or the shared tables changes.  CADENCE is raised with SEEK and START when the tracker was in another state (R85),
and the reply is OK.  In any other state it is refused STATE, and a channel above 3 is refused RANGE.  That the deadline of
the field timeout is 1.5 periods of R124 in ticks is the model's reading (log 3), that CADENCE comes before the reply its
choice (log 6), and so is the 0 of a reconstructor without work (log 11). -/
def Obligations.ChannelStartBeginsRun : Prop :=
  ∀ (s : State) (tag : Byte) (c : Chan), s.dev.Ready → s.dev.tagInUse tag = false →
    let ch := s.dev.chan c
    let started : Channel :=
      { state := .running
        settings := ch.settings
        intake :=
          { field := none, ring := [], nextSeq := 0, accepted := 0, discard := false, prevIdentity := none
            editMark := false, timeout := some (s.dev.now + ch.settings.system.lossTime), input := .normal }
        reader := ⟨ch.reader.committed, ch.reader.staged, none, none, none⟩
        context := none
        dropState := false
        tracker := ⟨.seek, [], 0⟩
        recon := ⟨[], 0, none, none⟩
        sync := ⟨ch.sync.onAir, [], false, false, 0, 0, 0, ch.sync.freeze⟩
        gen := ch.gen }
    let raised := if ch.tracker.cadence = .seek then s.dev.setChan c started
      else (s.dev.setChan c started).raise (.cadence c) (.cadence .seek .start)
    (ch.state = .ready →
      exec (.channelStart tag [BitVec.ofNat 8 c.val]) s = .next { s with dev := raised.answer tag 0x11 .ok [] } ∧
      raised.chan c = started ∧ Device.KeepsRest c s.dev raised ∧ raised.ops = s.dev.ops ∧
      raised.dropLog = s.dev.dropLog ∧ raised.overflow = s.dev.overflow) ∧
    (ch.state ≠ .ready →
      exec (.channelStart tag [BitVec.ofNat 8 c.val]) s = .next { s with dev := s.dev.answer tag 0x11 .state [] }) ∧
    (∀ b : Byte, 3 < b.toNat →
      exec (.channelStart tag [b]) s = .next { s with dev := s.dev.answer tag 0x11 .range [] })

/-- R145: CHANNEL_STOP on a RUNNING or HOLDING channel makes it STOPPING with a stop operation in flight, lets go of the
field in intake, whose open records close into the dropout log in the order they were opened (R60; the order is log
6's), and disarms the field timeout; what goes on air and the other channels stay.  A HOLDING channel keeps the rest.  As
a RUNNING one leaves RUNNING, the commit, the refresh and the flush pending on it are settled in that order (R34, R49,
R105, R155), and none of them is pending afterwards; the notices and replies of that follow the records
(`Channel.settling`; ReplyEntersQueue says what the reply of each is).  In any other state it is refused STATE, a channel
above 3 RANGE, and while all four operation slots are in flight BUSY (R152, R153). -/
def Obligations.ChannelStopBeginsStop : Prop :=
  ∀ (s : State) (tag : Byte) (c : Chan), s.dev.Ready → s.dev.tagInUse tag = false →
    let ch := s.dev.chan c
    let op : Operation := ⟨tag, .stop, [⟨c, .clear, none⟩], .none⟩
    let stopping := { ch with
      state := .stopping
      intake := { ch.intake with field := none, ring := ch.intake.keptRing, timeout := none } }
    let closed := ch.intake.openRecords.foldl Device.logRecord { s.dev with ops := s.dev.ops ++ [op] }
    (ch.state = .running ∨ ch.state = .holding → s.dev.ops.length < 4 →
      ∃ u, exec (.channelStop tag [BitVec.ofNat 8 c.val]) s = .next u ∧
        (u.dev.chan c).state = .stopping ∧ (u.dev.chan c).intake.field = none ∧ (u.dev.chan c).intake.timeout = none ∧
        (u.dev.chan c).sync = ch.sync ∧ (u.dev.chan c).gen = ch.gen ∧ (u.dev.chan c).recon.jobs = ch.recon.jobs ∧
        op ∈ u.dev.ops ∧ Device.KeepsRest c s.dev u.dev ∧ s.dev.Logged ch.intake.openRecords u.dev ∧
        (ch.state = .holding →
          u.dev = closed.setChan c stopping ∧ u.dev.chan c = stopping ∧ u.dev.ops = s.dev.ops ++ [op]) ∧
        (ch.state = .running → s.dev.OpsDistinct → u.dev.chan c = stopping.settled s.dev c ∧
          u.dev = stopping.settling s.dev c (closed.setChan c (stopping.settled s.dev c))) ∧
        (s.dev.OpsFit → ∀ k : OpName, k = .commit ∨ k = .refresh ∨ k = .flush → u.dev.isPending k c = false)) ∧
    (ch.state = .running ∨ ch.state = .holding → 4 ≤ s.dev.ops.length →
      exec (.channelStop tag [BitVec.ofNat 8 c.val]) s = .next { s with dev := s.dev.answer tag 0x12 .busy [] }) ∧
    (ch.state ≠ .running → ch.state ≠ .holding →
      exec (.channelStop tag [BitVec.ofNat 8 c.val]) s = .next { s with dev := s.dev.answer tag 0x12 .state [] }) ∧
    (∀ b : Byte, 3 < b.toNat →
      exec (.channelStop tag [b]) s = .next { s with dev := s.dev.answer tag 0x12 .range [] })

/-- R148, R149, R156: CHANNEL_RESET, whatever the channel's state, gives every block of the channel its reset value,
lowers the channel's own six notice sources and keeps their levels, and leaves the other channels, the profile table, the
dropout log and the cue lines as they were.  Where no operation is pending on the channel nothing else changes; an
operation whose only clear flag is the channel's ends with ABORTED, and its reply enters the queue before the reset's own
OK.  Whatever was pending, nothing is afterwards.  A channel above 3 is refused RANGE.  The 0 of a reconstructor without
work is the model's choice (log 11), and so is that the frame on air is black from the reset itself, though R122 has a
channel state that changes while a frame is being sent take effect at the next output frame start (log 29); that a last
field start is forgotten is its reading (log 16). -/
def Obligations.ChannelResetClearsAndAborts : Prop :=
  ∀ (s : State) (tag : Byte) (c : Chan), s.dev.Ready → s.dev.tagInUse tag = false →
    (∃ u, exec (.channelReset tag [BitVec.ofNat 8 c.val]) s = .next u ∧
      u.dev.chan c = Channel.reset (s.dev.chan c).gen.lastOut ∧ Device.KeepsRest c s.dev u.dev ∧
      u.dev.dropLog = s.dev.dropLog ∧ u.dev.overflow = s.dev.overflow ∧ ∀ k, u.dev.isPending k c = false) ∧
    ((∀ o ∈ s.dev.ops, o.pendingOn c = false) →
      ∃ ns : Vector NoticeRecord 28,
        (∀ src ∈ channelSources c, ns[src.index] = ⟨(s.dev.notice src).level, none, false⟩) ∧
        (∀ i : Fin 28, (∀ src ∈ channelSources c, src.index ≠ i) → ns[i] = s.dev.notices[i]) ∧
        exec (.channelReset tag [BitVec.ofNat 8 c.val]) s = .next { s with
          dev := ({ s.dev with
            chans := s.dev.chans.set c (Channel.reset (s.dev.chan c).gen.lastOut)
            notices := ns } : Device).answer tag 0x13 .ok [] }) ∧
    (∀ o : Operation, s.dev.ops = [o] → o.targets = [⟨c, .clear, none⟩] →
      ∃ (ns : Vector NoticeRecord 28) (rs : List Byte),
        (∀ src ∈ channelSources c, ns[src.index] = ⟨(s.dev.notice src).level, none, false⟩) ∧
        (∀ i : Fin 28, (∀ src ∈ channelSources c, src.index ≠ i) → ns[i] = s.dev.notices[i]) ∧
        (o.kind = .commit ∨ o.kind = .timing ∨ o.kind = .stop → rs = []) ∧
        exec (.channelReset tag [BitVec.ofNat 8 c.val]) s = .next { s with
          dev := (({ s.dev with
            chans := s.dev.chans.set c (Channel.reset (s.dev.chan c).gen.lastOut)
            notices := ns
            ops := [] } : Device).answer o.tag o.kind.code .aborted rs).answer tag 0x13 .ok [] }) ∧
    (∀ b : Byte, 3 < b.toNat →
      exec (.channelReset tag [b]) s = .next { s with dev := s.dev.answer tag 0x13 .range [] })

/-- R150, R168: CHANNEL_STATUS answers 34 bytes in the order of R168 and changes nothing; a channel above 3 is
refused RANGE. -/
def Obligations.ChannelStatusReports : Prop :=
  ∀ (s : State) (tag : Byte) (c : Chan), s.dev.Ready → s.dev.tagInUse tag = false →
    let ch := s.dev.chan c
    let rs :=
      [ch.state.code, systemCode ch.settings.system, BitVec.ofNat 8 ch.settings.defaultProfile] ++
      byte2 ch.settings.holdLimit ++
      [onOff ch.settings.timecodeUse, ch.intake.input.code, ch.gen.state.source.code, ch.gen.state.name.code,
       ch.tracker.cadence.code, ch.tracker.cadence.phaseCode] ++
      (match ch.context with
        | some x => [1, BitVec.ofNat 8 x.requested, BitVec.ofNat 8 x.source]
        | none => [0, 0, 0]) ++
      (match ch.reader.selection with
        | some x => [1, BitVec.ofNat 8 x.index]
        | none => [0, 0]) ++
      (match ch.reader.lastCount with
        | some k => 1 :: byte4 k.count
        | none => [0, 0, 0, 0, 0]) ++
      [onOff ch.sync.freeze, onOff (s.dev.cueFreeze c), onOff (ch.sync.freeze || s.dev.cueFreeze c)] ++
      byte2 ch.sync.repeats ++ byte2 ch.sync.drops ++ byte4 ch.intake.accepted.toNat ++
      [BitVec.ofNat 8 ch.intake.ring.length,
       BitVec.ofNat 8 ((s.dev.isPending .commit c).toNat + 2 * (s.dev.isPending .refresh c).toNat +
         4 * (s.dev.isPending .flush c).toNat + 8 * (s.dev.isPending .stop c).toNat)]
    rs.length = 34 ∧
    exec (.channelStatus tag [BitVec.ofNat 8 c.val]) s = .next { s with dev := s.dev.answer tag 0x14 .ok rs } ∧
    ∀ b : Byte, 3 < b.toNat →
      exec (.channelStatus tag [b]) s = .next { s with dev := s.dev.answer tag 0x14 .range [] }

/-- R151: CHANNEL_FREEZE sets or clears the command freeze flag in every channel state, changes nothing else, and answers
whether the channel is now frozen by either cause; a channel above 3 and a code other than on or off are refused
RANGE. -/
def Obligations.ChannelFreezeSetsFlag : Prop :=
  ∀ (s : State) (tag : Byte) (c : Chan), s.dev.Ready → s.dev.tagInUse tag = false →
    (∀ b b' : Byte, 3 < b.toNat → exec (.channelFreeze tag [b, b']) s =
      .next { s with dev := s.dev.answer tag 0x15 .range [] }) ∧
    (∀ on : Bool, exec (.channelFreeze tag [BitVec.ofNat 8 c.val, onOff on]) s = .next { s with
      dev := (s.dev.setChan c { s.dev.chan c with sync := { (s.dev.chan c).sync with freeze := on } }).answer
        tag 0x15 .ok [onOff (on || s.dev.cueFreeze c)] }) ∧
    (∀ b : Byte, 2 ≤ b.toNat → exec (.channelFreeze tag [BitVec.ofNat 8 c.val, b]) s =
      .next { s with dev := s.dev.answer tag 0x15 .range [] })

/-! ## Commands on the profile table -/

/-- R38, R39: PROFILE_WRITE of a profile within the ranges replaces what the slot held, each border component clamped to
4 to 1019, and changes nothing else; a profile that breaks a range, and a slot of 0 or above 31, are refused RANGE with
the table as it was.  The ranges, each written out, hold beside the codes of the enumerations, of which one
beyond the last value is refused RANGE too. -/
def Obligations.ProfileWriteFillsSlot : Prop :=
  ∀ (s : State) (tag : Byte) (slot : Nat) (q : Profile) (y cb cr : Nat), s.dev.Ready → s.dev.tagInUse tag = false →
    slot < 256 → y < 65536 → cb < 65536 → cr < 65536 →
    q.phaseOffset < 256 → q.motionLow < 65536 → q.motionHigh < 65536 → q.repeatThreshold < 256 →
    q.combThreshold < 256 → q.cropX0 < 65536 → q.cropWidth < 65536 → q.cropY0 < 65536 → q.cropHeight < 65536 →
    q.dropRun < 256 → q.dropLevel < 256 →
    let p := byte1 slot ++ q.bytes.take 20 ++ byte2 y ++ byte2 cb ++ byte2 cr
    let clamp := fun v => BitVec.ofNat 10 (max 4 (min v 1019))
    (1 ≤ slot → slot ≤ 31 → q.inRange = true → exec (.profileWrite tag p) s = .next { s with
      dev := ({ s.dev with
        profiles := s.dev.profiles.setIfInBounds (slot - 1)
          (some { q with border := ⟨clamp y, clamp cb, clamp cr⟩ }) } : Device).answer tag 0x20 .ok [] }) ∧
    (slot = 0 ∨ 31 < slot ∨ q.inRange = false →
      exec (.profileWrite tag p) s = .next { s with dev := s.dev.answer tag 0x20 .range [] }) ∧
    (q.inRange = true ↔
      q.phaseOffset ≤ 4 ∧ (q.mode = .force22 → q.phaseOffset ≤ 1) ∧
      q.motionLow ≤ 1022 ∧ q.motionLow < q.motionHigh ∧ q.motionHigh ≤ 1023 ∧
      1 ≤ q.repeatThreshold ∧ q.repeatThreshold ≤ 255 ∧ 1 ≤ q.combThreshold ∧ q.combThreshold ≤ 255 ∧
      q.cropX0 % 2 = 0 ∧ q.cropX0 ≤ 360 ∧
      q.cropWidth % 2 = 0 ∧ 360 ≤ q.cropWidth ∧ q.cropWidth ≤ 720 ∧ q.cropX0 + q.cropWidth ≤ 720 ∧
      q.cropY0 % 2 = 0 ∧ q.cropY0 ≤ 336 ∧
      q.cropHeight % 2 = 0 ∧ 240 ≤ q.cropHeight ∧ q.cropHeight ≤ 576 ∧ q.cropY0 + q.cropHeight ≤ 576 ∧
      8 ≤ q.dropRun ∧ q.dropRun ≤ 255 ∧ 4 ≤ q.dropLevel ∧ q.dropLevel ≤ 63) ∧
    (∀ w : List Byte, w.length = 27 → 3 < byteAt w 1 ∨ 1 < byteAt w 9 ∨ 1 < byteAt w 18 →
      exec (.profileWrite tag w) s = .next { s with dev := s.dev.answer tag 0x20 .range [] })

/-- R40, R41: PROFILE_READ answers the slot's contents as stored, place 0 the built-in profile, an empty slot its number
and the empty marker, and changes nothing; PROFILE_ERASE empties the slot, filled or not, and answers OK, changing no
context, history slot, plan or channel.  A slot number above 31, and for the erase slot 0, is refused RANGE. -/
def Obligations.ProfileReadAndErase : Prop :=
  ∀ (s : State) (tag : Byte), s.dev.Ready → s.dev.tagInUse tag = false →
    exec (.profileRead tag [0]) s = .next { s with dev := s.dev.answer tag 0x21 .ok ([0, 1] ++ profile0.bytes) } ∧
    (∀ (k : Fin 31) q, s.dev.profiles[k] = some q → exec (.profileRead tag (byte1 (k.val + 1))) s =
      .next { s with dev := s.dev.answer tag 0x21 .ok (byte1 (k.val + 1) ++ [1] ++ q.bytes) }) ∧
    (∀ k : Fin 31, s.dev.profiles[k] = none → exec (.profileRead tag (byte1 (k.val + 1))) s =
      .next { s with dev := s.dev.answer tag 0x21 .ok (byte1 (k.val + 1) ++ [0]) }) ∧
    (∀ b : Byte, 31 < b.toNat → exec (.profileRead tag [b]) s =
      .next { s with dev := s.dev.answer tag 0x21 .range [] }) ∧
    (∀ k : Fin 31, exec (.profileErase tag (byte1 (k.val + 1))) s = .next { s with
      dev := ({ s.dev with profiles := s.dev.profiles.set k none } : Device).answer tag 0x22 .ok [] }) ∧
    (∀ b : Byte, b = 0 ∨ 31 < b.toNat → exec (.profileErase tag [b]) s =
      .next { s with dev := s.dev.answer tag 0x22 .range [] })

/-- R38, R168: a profile within the ranges is read back whole from the 26 bytes that the part lays it out in, wherever
they stand in a payload. -/
def Obligations.ProfileLayoutRoundTrip : Prop :=
  ∀ (q : Profile) (before after : List Byte), q.inRange = true → q.border.Legal →
    profileAt (before ++ q.bytes ++ after) before.length = some q

/-! ## Commands on plans -/

/-- R26, R27: the checks on an entry offered to a staged plan, in order, and the first that fails decides the refusal; an
entry that passes them all is appended with the counts of field F1 of its start frame and field F2 of its end frame. -/
def Obligations.EntryChecksInOrder : Prop :=
  ∀ (y : System) (plan : Plan) (e : EntryFields),
    let b := baseOf y e.startTc.drop
    let start := fieldCountOf b e.startTc .f1
    let stop := fieldCountOf b e.endTc .f2
    let valid := timecodeValid y e.startTc = true ∧ timecodeValid y e.endTc = true ∧ e.profile ≤ 31 ∧
      (plan.entries = [] ∨ plan.base = some b)
    let ordered := start ≤ stop ∧ ∀ last, plan.entries.getLast? = some last → last.endCount < start
    (stageEntry y plan e = .error .range ↔ ¬ valid) ∧
    (stageEntry y plan e = .error .order ↔ valid ∧ ¬ ordered) ∧
    (stageEntry y plan e = .error .full ↔ valid ∧ ordered ∧ 64 ≤ plan.entries.length) ∧
    (∀ plan', stageEntry y plan e = .ok plan' ↔ valid ∧ ordered ∧ plan.entries.length < 64 ∧
      plan' = ⟨some b, plan.entries ++ [⟨e.startTc, e.endTc, e.profile, e.edit, start, stop⟩]⟩)

/-- R28: PLAN_STAGE_ADD appends the entries of the command one after another up to the first that fails; those before it
stay, those after it are not examined, and the reply carries the count added with OK or with the failing check's status.
While a commit is pending on the channel it is refused BUSY, and a channel above 3 is refused RANGE, both with the
count 0.  R153: with the tag in use a first entry that fails its check
is refused as without; one that passes is not appended, and the command is refused TAG_IN_USE.  That the tag check stands
after the check of the first entry alone is the model's reading (log 9). -/
def Obligations.PlanStageAddAppendsPrefix : Prop :=
  ∀ (s : State) (tag : Byte) (c : Chan) (es : List EntryFields), s.dev.Ready →
    1 ≤ es.length → es.length ≤ 8 →
    (∀ e ∈ es, e.startTc.hours < 256 ∧ e.startTc.minutes < 256 ∧ e.startTc.seconds < 256 ∧ e.startTc.frames < 256 ∧
      e.endTc.hours < 256 ∧ e.endTc.minutes < 256 ∧ e.endTc.seconds < 256 ∧ e.endTc.frames < 256 ∧
      e.profile < 256 ∧ e.endTc.drop = e.startTc.drop) →
    let ch := s.dev.chan c
    let p := BitVec.ofNat 8 c.val :: es.flatMap fun e => (e.convert .b625).bytes
    (s.dev.isPending .commit c = false → s.dev.tagInUse tag = false → ∃ n plan st,
      exec (.planStageAdd tag p) s = .next { s with
        dev := (s.dev.setChan c { ch with reader := { ch.reader with staged := plan } }).answer
          tag 0x31 st (byte1 n) } ∧
      n ≤ es.length ∧
      (es.take n).foldlM (fun q e => stageEntry ch.settings.system q e) ch.reader.staged = .ok plan ∧
      (n = es.length → st = .ok) ∧
      (∀ e, es[n]? = some e → stageEntry ch.settings.system plan e = .error st)) ∧
    (s.dev.isPending .commit c = false → s.dev.tagInUse tag = true → ∀ e, es.head? = some e →
      (∀ st, stageEntry ch.settings.system ch.reader.staged e = .error st →
        exec (.planStageAdd tag p) s = .next { s with dev := s.dev.answer tag 0x31 st [0] }) ∧
      (∀ plan, stageEntry ch.settings.system ch.reader.staged e = .ok plan →
        exec (.planStageAdd tag p) s = .next { s with dev := s.dev.answer tag 0x31 .tagInUse [] })) ∧
    (s.dev.isPending .commit c = true → exec (.planStageAdd tag p) s =
      .next { s with dev := s.dev.answer tag 0x31 .busy [0] }) ∧
    (∀ b : Byte, 3 < b.toNat → exec (.planStageAdd tag (b :: p.tail)) s =
      .next { s with dev := s.dev.answer tag 0x31 .range [0] })

/-- R31, R32: PLAN_COMMIT on a RUNNING channel becomes a pending operation; on any other the swap is made at once: the
staged plan replaces the committed one and is left empty, the selection is sought in the new plan by its start
count, and the reply is OK with the number of entries committed.  A second commit on the channel is refused BUSY,
and so is one while all four operation slots are in flight (R152, R153); a channel above 3 is refused RANGE. -/
def Obligations.PlanCommitPendsOrSwaps : Prop :=
  ∀ (s : State) (tag : Byte) (c : Chan), s.dev.Ready → s.dev.tagInUse tag = false →
    let ch := s.dev.chan c
    (s.dev.isPending .commit c = false → s.dev.ops.length < 4 → ch.state = .running →
      exec (.planCommit tag [BitVec.ofNat 8 c.val]) s = .next { s with
        dev := { s.dev with ops := s.dev.ops ++ [⟨tag, .commit, [⟨c, .clear, none⟩], .none⟩] } }) ∧
    (s.dev.isPending .commit c = false → s.dev.ops.length < 4 → ch.state ≠ .running → ∃ sel,
      exec (.planCommit tag [BitVec.ofNat 8 c.val]) s = .next { s with
        dev := (s.dev.setChan c { ch with
            reader := { ch.reader with committed := ch.reader.staged, staged := ⟨none, []⟩, selection := sel } }).answer
          tag 0x32 .ok (byte1 ch.reader.staged.entries.length) } ∧
      ch.reader.swap =
        { ch.reader with committed := ch.reader.staged, staged := ⟨none, []⟩, selection := sel } ∧
      (ch.reader.selection = none → sel = none) ∧
      (∀ x, ch.reader.selection = some x →
        ((∀ e ∈ ch.reader.staged.entries, e.startCount ≠ x.startCount) → sel = none) ∧
        (∀ x', sel = some x' → ∃ e, ch.reader.staged.entries[x'.index]? = some e ∧ e.startCount = x.startCount ∧
          x' = ⟨e.startCount, e.endCount, x'.index, e.profile, e.edit⟩) ∧
        ((∃ e ∈ ch.reader.staged.entries, e.startCount = x.startCount) → sel ≠ none))) ∧
    (s.dev.isPending .commit c = true ∨ 4 ≤ s.dev.ops.length → exec (.planCommit tag [BitVec.ofNat 8 c.val]) s =
      .next { s with dev := s.dev.answer tag 0x32 .busy [] }) ∧
    (∀ b : Byte, 3 < b.toNat → exec (.planCommit tag [b]) s =
      .next { s with dev := s.dev.answer tag 0x32 .range [] })

/-- R29, R30: PLAN_STAGE_CLEAR empties the staged plan, whose base becomes none, in every channel state and leaves the
committed plan; while a commit is pending on the channel it is refused BUSY.  PLAN_READ answers the named plan's entry
count and base, whether a commit is pending, and up to 12 entries from the starting index on, and changes nothing; an
index beyond the entry count and a selector beyond STAGED are refused RANGE, and so is a channel above 3. -/
def Obligations.PlanClearAndRead : Prop :=
  ∀ (s : State) (tag : Byte) (c : Chan) (start : Nat), s.dev.Ready → s.dev.tagInUse tag = false → start < 256 →
    (s.dev.isPending .commit c = false → exec (.planStageClear tag [BitVec.ofNat 8 c.val]) s = .next { s with
      dev := (s.dev.setChan c
          { s.dev.chan c with reader := { (s.dev.chan c).reader with staged := ⟨none, []⟩ } }).answer tag 0x30 .ok [] }) ∧
    (s.dev.isPending .commit c = true → exec (.planStageClear tag [BitVec.ofNat 8 c.val]) s =
      .next { s with dev := s.dev.answer tag 0x30 .busy [] }) ∧
    (∀ b : Byte, 3 < b.toNat → exec (.planStageClear tag [b]) s =
      .next { s with dev := s.dev.answer tag 0x30 .range [] }) ∧
    (∀ staged : Bool,
      let plan := if staged then (s.dev.chan c).reader.staged else (s.dev.chan c).reader.committed
      let served := (plan.entries.drop start).take 12
      (start ≤ plan.entries.length → exec (.planRead tag ([BitVec.ofNat 8 c.val, onOff staged] ++ byte1 start)) s =
        .next { s with dev := (s.dev.answer tag 0x33 .ok
          (byte1 plan.entries.length ++ [baseCode plan.base, onOff (s.dev.isPending .commit c)] ++
            byte1 served.length ++ served.flatMap PlanEntry.bytes)) }) ∧
      (plan.entries.length < start → exec (.planRead tag ([BitVec.ofNat 8 c.val, onOff staged] ++ byte1 start)) s =
        .next { s with dev := s.dev.answer tag 0x33 .range [] })) ∧
    (∀ b : Byte, 2 ≤ b.toNat → exec (.planRead tag ([BitVec.ofNat 8 c.val, b] ++ byte1 start)) s =
      .next { s with dev := s.dev.answer tag 0x33 .range [] }) ∧
    (∀ b b' : Byte, 3 < b.toNat → exec (.planRead tag ([b, b'] ++ byte1 start)) s =
      .next { s with dev := s.dev.answer tag 0x33 .range [] })

/-! ## Refresh, flush and timing select -/

/-- R47, R48: CONTEXT_REFRESH CHANNEL(c) on a RUNNING channel becomes pending; on any other the context reloads at once
from the table as it stands, the requested id kept and an empty context left empty; where that changes the cadence mode the
tracker takes the state of the new mode, at phase 0 in a forced film mode, keeps its history and its counter, and raises
CADENCE when its state's name changes (R82); nothing else changes, and the reply names the channel.  A channel with a
refresh pending is refused BUSY, and so is a refresh while all four operation slots are in flight (R152, R153); a channel
above 3 is refused RANGE.  That CADENCE comes before the reply is the model's choice (log 6). -/
def Obligations.ContextRefreshOfChannel : Prop :=
  ∀ (s : State) (tag : Byte) (c : Chan), s.dev.Ready → s.dev.tagInUse tag = false →
    let ch := s.dev.chan c
    let p := [0, BitVec.ofNat 8 c.val]
    let context := ch.context.map fun x => reloadContext s.dev.profiles ch.settings x.requested
    (s.dev.isPending .refresh c = true ∨ 4 ≤ s.dev.ops.length →
      exec (.contextRefresh tag p) s = .next { s with dev := s.dev.answer tag 0x40 .busy [] }) ∧
    (s.dev.isPending .refresh c = false → s.dev.ops.length < 4 → ch.state = .running →
      exec (.contextRefresh tag p) s = .next { s with
        dev := { s.dev with ops := s.dev.ops ++ [⟨tag, .refresh .channel, [⟨c, .clear, none⟩], .none⟩] } }) ∧
    (s.dev.isPending .refresh c = false → s.dev.ops.length < 4 → ch.state ≠ .running →
      ∃ u cadence, exec (.contextRefresh tag p) s = .next u ∧
        (let tracker := { ch.tracker with cadence := cadence }
        let reloaded := s.dev.setChan c { ch with context := context, tracker := tracker }
        u = { s with
          dev := (reloaded.cadenceTold c ch.tracker tracker .forced).answer tag 0x40 .ok [0, BitVec.ofNat 8 (2 ^ c.val)] } ∧
        u.dev.chan c = { ch with context := context, tracker := tracker }) ∧
        (ch.context.map (·.params.mode) = context.map (·.params.mode) → cadence = ch.tracker.cadence) ∧
        (∀ x x', ch.context = some x → context = some x' → x.params.mode ≠ x'.params.mode →
          cadence = match x'.params.mode with
            | .auto => .seek
            | .forceVideo => .forcedVideo
            | .force22 => .forced22 0
            | .force32 => .forced32 0) ∧
        Device.KeepsRest c s.dev u.dev ∧ u.dev.ops = s.dev.ops ∧ u.dev.dropLog = s.dev.dropLog) ∧
    (∀ b : Byte, 3 < b.toNat → exec (.contextRefresh tag [0, b]) s =
      .next { s with dev := s.dev.answer tag 0x40 .range [] })

/-- R47, R48: a refresh of ALL scope takes all four channels as its targets; one of PROFILE scope takes the channels that
use the profile, and all four, coarsened to ALL, while a plan commit is pending on any channel.  On the targets that are
not RUNNING it is carried out at once, in ascending order (log 6), with the tracker told of a change of mode (R82); on the
RUNNING ones it becomes pending.  It completes when taken where no target RUNS, and so with no target.  With a refresh
pending on a target, or all four operation slots in flight (R152, R153), it is refused BUSY; a profile above 31 and a scope
of WINDOW or above are refused RANGE. -/
def Obligations.RefreshTargetsByScope : Prop :=
  ∀ (s : State) (tag : Byte) (id : Nat) (b : Byte), s.dev.Ready → s.dev.tagInUse tag = false →
    let users := ([0, 1, 2, 3] : List Chan).filter fun c =>
      (s.dev.chan c).context.any fun x => decide (x.requested = id) || decide (x.source = id)
    let running := fun c : Chan => decide ((s.dev.chan c).state = .running)
    let asks := fun (p : List Byte) (scope : RefreshScope) (cs : List Chan) =>
      let answered := fun dev : Device => exec (.contextRefresh tag p) s = .next { s with dev := dev }
      let done := cs.foldl (fun u c =>
        let ch := s.dev.chan c
        let context := ch.context.map fun x => reloadContext s.dev.profiles ch.settings x.requested
        let tracker := ch.tracker.told ch.context context none
        if running c then u
        else (u.setChan c { ch with context := context, tracker := tracker }).cadenceTold c ch.tracker tracker .forced) s.dev
      ((∃ c ∈ cs, s.dev.isPending .refresh c = true) ∨ 4 ≤ s.dev.ops.length →
        answered (s.dev.answer tag 0x40 .busy [])) ∧
      ((∀ c ∈ cs, s.dev.isPending .refresh c = false) → s.dev.ops.length < 4 →
        ((∃ c ∈ cs, running c = true) → answered { done with
          ops := s.dev.ops ++ [⟨tag, .refresh scope,
            cs.map fun c => ⟨c, if running c then .clear else .done, none⟩, .none⟩] }) ∧
        ((∀ c ∈ cs, running c = false) → answered (done.answer tag 0x40 .ok [scope.code, chanSet cs])))
    asks [2, b] .all [0, 1, 2, 3] ∧
    (id ≤ 31 → (∃ c, s.dev.isPending .commit c = true) → asks ([1] ++ byte1 id) .all [0, 1, 2, 3]) ∧
    (id ≤ 31 → (∀ c, s.dev.isPending .commit c = false) → asks ([1] ++ byte1 id) .profile users) ∧
    (31 < b.toNat → exec (.contextRefresh tag [1, b]) s = .next { s with dev := s.dev.answer tag 0x40 .range [] }) ∧
    (∀ b', 2 < b'.toNat → exec (.contextRefresh tag [b', b]) s =
      .next { s with dev := s.dev.answer tag 0x40 .range [] })

/-- R101 to R104: HISTORY_FLUSH, WINDOW of an acceptable rectangle or CHANNEL, becomes pending on a RUNNING channel and
is performed at once on one that is not: as WINDOW it sets the window memory with count 2 and changes nothing else; as
CHANNEL, which WINDOW becomes under an AUTO film lock, it marks the ring stale, makes the window memory absent, and
clears the tracker: its history and its counter begin again, an AUTO state becomes SEEK, with CADENCE raised when the
state's name changes, and SEEK and a forced state are kept (R84).  ALL is performed as CHANNEL, at once and in ascending
order (log 6) on the channels not RUNNING, and waits for the RUNNING ones.  The reply names the targets, the channels
flushed and the scope performed on each (R106).  A target with a flush pending, or four operation slots in flight (R152,
R153), is refused BUSY.  A rectangle with an odd number, a size of 0 or an edge outside the frame, a channel above 3, and a
scope code of PROFILE or above WINDOW are refused RANGE. -/
def Obligations.FlushPendsOrPerforms : Prop :=
  ∀ (s : State) (tag : Byte) (c : Chan) (r : Rect) (b : Byte) (w : List Byte), s.dev.Ready →
    s.dev.tagInUse tag = false → w.length = 8 → r.x0 < 65536 → r.y0 < 65536 → r.w < 65536 → r.h < 65536 →
    let ch := s.dev.chan c
    let good := r.x0 % 2 = 0 ∧ r.y0 % 2 = 0 ∧ r.w % 2 = 0 ∧ r.h % 2 = 0 ∧ r.w ≠ 0 ∧ r.h ≠ 0 ∧ r.x0 + r.w ≤ 720 ∧
      r.y0 + r.h ≤ (match ch.settings.system with
        | .s625 => 576
        | .s525 => 480)
    let window := [3, BitVec.ofNat 8 c.val] ++ byte2 r.x0 ++ byte2 r.y0 ++ byte2 r.w ++ byte2 r.h
    let channel := [0, BitVec.ofNat 8 c.val] ++ w
    let chans : List Chan := [0, 1, 2, 3]
    let bit := BitVec.ofNat 8 (2 ^ c.val)
    let auto := (∃ q, ch.tracker.cadence = .film22 q) ∨ ∃ q, ch.tracker.cadence = .film32 q
    let answered := fun (p : List Byte) (dev : Device) => exec (.historyFlush tag p) s = .next { s with dev := dev }
    let takes := fun (p : List Byte) (dev : Device) (o : Operation) => answered p { dev with ops := s.dev.ops ++ [o] }
    let cleared := fun (k : Chan) (u : Device) =>
      let old := s.dev.chan k
      (u.setChan k { old with
        intake := { old.intake with ring := old.intake.ring.map fun f => { f with stale := true } }
        recon := { old.recon with windowMemory := none }
        tracker := old.tracker.restarted }).cadenceTold k old.tracker old.tracker.restarted .flush
    let performsChannel := fun p : List Byte => answered p ((cleared c s.dev).answer tag 0x41 .ok
      ([bit, bit] ++ chans.map fun k => if k = c then 0 else 0xFF))
    let running := fun k : Chan => decide ((s.dev.chan k).state = .running)
    let done := chans.foldl (fun u k => if running k then u else cleared k u) s.dev
    (s.dev.isPending .flush c = false → s.dev.ops.length < 4 →
      (good → ch.state = .running → takes window s.dev ⟨tag, .flush (.window r), [⟨c, .clear, none⟩], .none⟩) ∧
      (ch.state = .running → takes channel s.dev ⟨tag, .flush .channel, [⟨c, .clear, none⟩], .none⟩) ∧
      (good → ch.state ≠ .running → ¬ auto → answered window
        ((s.dev.setChan c { ch with recon := { ch.recon with windowMemory := some ⟨r, 2⟩ } }).answer tag 0x41 .ok
          ([bit, bit] ++ chans.map fun k => if k = c then 3 else 0xFF))) ∧
      (good → ch.state ≠ .running → auto → performsChannel window) ∧
      (ch.state ≠ .running → performsChannel channel)) ∧
    (s.dev.isPending .flush c = true ∨ 4 ≤ s.dev.ops.length →
      (good → answered window (s.dev.answer tag 0x41 .busy [])) ∧ answered channel (s.dev.answer tag 0x41 .busy [])) ∧
    ((∀ k, s.dev.isPending .flush k = false) → s.dev.ops.length < 4 →
      ((∃ k, running k = true) → takes ([2, b] ++ w) done ⟨tag, .flush .all,
        chans.map fun k => if running k then ⟨k, .clear, none⟩ else ⟨k, .done, some .channel⟩, .none⟩) ∧
      ((∀ k, running k = false) → answered ([2, b] ++ w) (done.answer tag 0x41 .ok [15, 15, 0, 0, 0, 0]))) ∧
    ((∃ k, s.dev.isPending .flush k = true) ∨ 4 ≤ s.dev.ops.length →
      answered ([2, b] ++ w) (s.dev.answer tag 0x41 .busy [])) ∧
    (¬ good → answered window (s.dev.answer tag 0x41 .range [])) ∧
    (∀ b', b'.toNat = 1 ∨ 3 < b'.toNat ∨ (b'.toNat ≠ 2 ∧ 3 < b.toNat) →
      answered ([b', b] ++ w) (s.dev.answer tag 0x41 .range []))

/-- R127: TIMING_SELECT HOUSE or INPUT outside an acquisition takes a slot and begins a COMMANDED acquisition that
remembers the timing in force, raises TIMING with ACQUIRE and COMMAND, and the output runs on; INTERNAL sets FREE at once,
raises TIMING with FREE and COMMAND when the state was another, and answers OK with COMMAND, INTERNAL and FREE; during an
acquisition it is refused BUSY, and so it is while all four operation slots are in flight (R152, R153).  A channel above 3
and a source code above 2 are refused RANGE.  That INTERNAL leaves the kept period as it was is the model's reading (log
16). -/
def Obligations.TimingSelectBeginsAcquisition : Prop :=
  ∀ (s : State) (tag : Byte) (c : Chan), s.dev.Ready → s.dev.tagInUse tag = false →
    let g := (s.dev.chan c).gen
    let p := fun b : Byte => [BitVec.ofNat 8 c.val, b]
    let timed := fun (t : TimingState) (u : Device) => u.setChan c { s.dev.chan c with gen := { g with state := t } }
    (∀ prior (src : RefSource), g.state = .settled prior → s.dev.ops.length < 4 →
      ∃ u, exec (.timingSelect tag (p src.source.code)) s = .next u ∧
        u.dev = (timed (.acquire ⟨true, src, prior, g.kept, 0, s.dev.now, false⟩)
          { s.dev with ops := s.dev.ops ++ [⟨tag, .timing, [⟨c, .clear, none⟩], .none⟩] }).raise
            (.timing c) (.timing src.source .acquire .command) ∧
        u.dev.chan c = { s.dev.chan c with
          gen := { g with state := .acquire ⟨true, src, prior, g.kept, 0, s.dev.now, false⟩ } } ∧
        Device.KeepsRest c s.dev u.dev ∧ u.dev.dropLog = s.dev.dropLog ∧
        u.dev.ops = s.dev.ops ++ [⟨tag, .timing, [⟨c, .clear, none⟩], .none⟩]) ∧
    (∀ prior, g.state = .settled prior → s.dev.isPending .timing c = false → s.dev.ops.length < 4 →
      ∃ u, exec (.timingSelect tag (p 0)) s = .next u ∧
        (prior ≠ .free → u.dev = ((timed (.settled .free) s.dev).raise (.timing c)
          (.timing .internal .free .command)).answer tag 0x42 .ok [0, 0, 0]) ∧
        (prior = .free → u.dev = s.dev.answer tag 0x42 .ok [0, 0, 0]) ∧
        u.dev.chan c = { s.dev.chan c with gen := { g with state := .settled .free } } ∧
        Device.KeepsRest c s.dev u.dev ∧ u.dev.dropLog = s.dev.dropLog ∧ u.dev.ops = s.dev.ops) ∧
    (∀ b, b.toNat ≤ 2 → (∃ a, g.state = .acquire a) ∨ 4 ≤ s.dev.ops.length → exec (.timingSelect tag (p b)) s =
      .next { s with dev := s.dev.answer tag 0x42 .busy [] }) ∧
    (∀ channel source : Byte, 3 < channel.toNat ∨ 2 < source.toNat → exec (.timingSelect tag [channel, source]) s =
      .next { s with dev := s.dev.answer tag 0x42 .range [] })

/-! ## Commands on the dropout log, the notices and the cue lines -/

/-- R64 to R66: DROPLOG_READ removes and answers the oldest records, at most twelve, and clears the overflow flag only
when it leaves the log empty; DROPLOG_CLEAR empties the log and clears the flag; DROPLOG_WATERMARK sets the watermark, at
most 256.  A number of 0 is refused RANGE.  Nothing else changes. -/
def Obligations.DroplogCommandsServe : Prop :=
  ∀ (s : State) (tag : Byte), s.dev.Ready → s.dev.tagInUse tag = false →
    (∀ n, 1 ≤ n → n < 256 →
      let k := min n (min 12 s.dev.dropLog.length)
      exec (.droplogRead tag (byte1 n)) s = .next { s with
        dev := ({ s.dev with
          dropLog := s.dev.dropLog.drop k
          overflow := if s.dev.dropLog.length = k then false else s.dev.overflow } : Device).answer tag 0x50 .ok
          (byte1 k ++ byte2 (s.dev.dropLog.length - k) ++ [onOff s.dev.overflow] ++
            (s.dev.dropLog.take k).flatMap DropRecord.bytes) }) ∧
    exec (.droplogRead tag [0]) s = .next { s with dev := s.dev.answer tag 0x50 .range [] } ∧
    exec (.droplogClear tag []) s = .next { s with
      dev := ({ s.dev with dropLog := [], overflow := false } : Device).answer tag 0x51 .ok
        (byte2 s.dev.dropLog.length ++ [onOff s.dev.overflow]) } ∧
    (∀ v, 1 ≤ v → v < 65536 → exec (.droplogWatermark tag (byte2 v)) s = .next { s with
      dev := ({ s.dev with watermark := min 256 v } : Device).answer tag 0x52 .ok (byte2 (min 256 v)) }) ∧
    exec (.droplogWatermark tag [0, 0]) s = .next { s with dev := s.dev.answer tag 0x52 .range [] }

/-- R172 to R174. NOTICE_LEVEL gives each source of its list the level of the last pair that names it and leaves the
flags and details, and an IDLE uplink then makes its choice at once; a number outside 1 to 28 or a level above 7
anywhere in the list applies no pair and is refused RANGE. NOTICE_WITHDRAW lowers each listed source and NOTICE_POLL
every raised one, keeping the levels; the poll answers an entry for each raised source in ascending number; a number
outside 1 to 28 withdraws nothing and is refused RANGE. That the choice comes before the command's own reply is the
model's choice (log 6). -/
def Obligations.NoticeCommandsServe : Prop :=
  ∀ (s : State) (tag : Byte), s.dev.Ready → s.dev.tagInUse tag = false →
    (∀ pairs : List (Byte × Byte), pairs ≠ [] → pairs.length ≤ 28 →
      let p := pairs.flatMap fun q => [q.1, q.2]
      ((∀ q ∈ pairs, 1 ≤ q.1.toNat ∧ q.1.toNat ≤ 28 ∧ q.2.toNat ≤ 7) →
        ∃ ns : Vector NoticeRecord 28,
          (∀ i : Fin 28, ns[i].raised = s.dev.notices[i].raised ∧ ns[i].superseded = s.dev.notices[i].superseded) ∧
          (∀ i : Fin 28, (∀ q ∈ pairs, q.1.toNat ≠ i.val + 1) → ns[i] = s.dev.notices[i]) ∧
          (∀ (i : Fin 28) before q after, pairs = before ++ q :: after → q.1.toNat = i.val + 1 →
            (∀ q' ∈ after, q'.1.toNat ≠ i.val + 1) → ns[i].level.val = q.2.toNat) ∧
          exec (.noticeLevel tag p) s = .next { s with
            dev := ({ s.dev with notices := ns } : Device).choose.answer tag 0x60 .ok [] }) ∧
      ((∃ q ∈ pairs, q.1.toNat = 0 ∨ 28 < q.1.toNat ∨ 7 < q.2.toNat) →
        exec (.noticeLevel tag p) s = .next { s with dev := s.dev.answer tag 0x60 .range [] })) ∧
    (∀ p : List Byte, p ≠ [] → p.length ≤ 28 → (∀ b ∈ p, 1 ≤ b.toNat ∧ b.toNat ≤ 28) →
      ∃ ns : Vector NoticeRecord 28,
        (∀ i : Fin 28, BitVec.ofNat 8 (i.val + 1) ∈ p → ns[i] = ⟨s.dev.notices[i].level, none, false⟩) ∧
        (∀ i : Fin 28, BitVec.ofNat 8 (i.val + 1) ∉ p → ns[i] = s.dev.notices[i]) ∧
        exec (.noticeWithdraw tag p) s = .next { s with
          dev := ({ s.dev with notices := ns } : Device).answer tag 0x61 .ok [] }) ∧
    (∀ p : List Byte, p.length ≤ 28 → (∃ b ∈ p, b.toNat = 0 ∨ 28 < b.toNat) →
      exec (.noticeWithdraw tag p) s = .next { s with dev := s.dev.answer tag 0x61 .range [] }) ∧
    (∃ entries : List (Fin 28 × Detail),
      entries.map Prod.fst = (List.finRange 28).filter (fun i => s.dev.notices[i].raised.isSome) ∧
      (∀ e ∈ entries, s.dev.notices[e.1].raised = some e.2) ∧
      exec (.noticePoll tag []) s = .next { s with
        dev := ({ s.dev with notices := s.dev.notices.map fun r => ⟨r.level, none, false⟩ } : Device).answer tag 0x62 .ok
          (byte1 entries.length ++ entries.flatMap fun e =>
            noticeEntry (e.1.val + 1) s.dev.notices[e.1].level s.dev.notices[e.1].superseded e.2) })

/-- R177: CUE_CONFIG that passes its checks replaces the function, input enable and polarity of its line at once; a line
that had an output function keeps as its general output level the level that function was driving, any other keeps its
own; EDIT_MARK and FREEZE with the input off are refused NEEDS_INPUT. -/
def Obligations.CueConfigReplacesRecord : Prop :=
  ∀ (s : State) (tag : Byte) (n : CueNo) (on low : Bool) (c : Chan), s.dev.Ready → s.dev.tagInUse tag = false →
    let polarity := if low then Polarity.low else Polarity.high
    let p := fun function parameter : Nat =>
      [BitVec.ofNat 8 n.val] ++ byte1 function ++ byte1 parameter ++ [onOff on, onOff low]
    let done := fun function : CueFunction => (.next { s with
      dev := ({ s.dev with
        cues := s.dev.cues.set n ⟨function, on, polarity,
          match (s.dev.cue n).function with
          | .general => (s.dev.cue n).drivesLow
          | .editMark _ => (s.dev.cue n).drivesLow
          | .freeze _ => (s.dev.cue n).drivesLow
          | .tallyDropout k => (s.dev.chan k).dropState
          | .tallyFilm k => (s.dev.chan k).tracker.cadence.isFilm
          | .attention t => s.dev.attention t⟩ } : Device).answer tag 0x70 .ok [] } : Host.Outcome State Fault Refusal)
    let refused := fun st =>
      (.next { s with dev := s.dev.answer tag 0x70 st [] } : Host.Outcome State Fault Refusal)
    (∀ b, b < 256 → exec (.cueConfig tag (p 0 b)) s = done .general) ∧
    exec (.cueConfig tag (p 1 c.val)) s = (if on then done (.editMark c) else refused .needsInput) ∧
    exec (.cueConfig tag (p 2 c.val)) s = (if on then done (.freeze c) else refused .needsInput) ∧
    exec (.cueConfig tag (p 3 c.val)) s = done (.tallyDropout c) ∧
    exec (.cueConfig tag (p 4 c.val)) s = done (.tallyFilm c) ∧
    (∀ t : Fin 8, t ≠ 0 → exec (.cueConfig tag (p 5 t.val)) s = done (.attention t)) ∧
    (∀ k b, 1 ≤ k → k ≤ 4 → 3 < b → b < 256 → exec (.cueConfig tag (p k b)) s = refused .range) ∧
    (∀ b, b = 0 ∨ 7 < b → b < 256 → exec (.cueConfig tag (p 5 b)) s = refused .range) ∧
    (∀ k b, 5 < k → k < 256 → b < 256 → exec (.cueConfig tag (p k b)) s = refused .range)

/-- R178 to R180: CUE_READ answers the sensed level of each line and the lines driven low, and changes nothing.
CUE_SET sets the general output level of the GENERAL lines of its mask and answers which lines those were.  Such a line
senses its own edge where its input is on, the outside holds it high and its drive changes; the edge is active where the new
level is the one its polarity names, high for RISING and low for FALLING, and raises CUE_EDGE with the line.  Nothing else
changes.  That several lines are taken in ascending number, and that CUE_EDGE comes before the reply, is the model's choice
(log 6). -/
def Obligations.CueReadAndSet : Prop :=
  ∀ (s : State) (tag : Byte), s.dev.Ready → s.dev.tagInUse tag = false →
    (∃ sensed driven : Byte,
      exec (.cueRead tag []) s = .next { s with dev := s.dev.answer tag 0x71 .ok [sensed, driven] } ∧
      ∀ n : CueNo, sensed.getLsbD n.val = s.dev.sensed n ∧ driven.getLsbD n.val = s.dev.drives n) ∧
    (∀ mask level : Byte,
      ∃ (u : State) (cs : Vector CueRecord 8) (applied : Byte),
        let edge := fun n : CueNo => applied.getLsbD n.val && (s.dev.cue n).inputOn && s.dev.cueOutside[n] &&
          decide ((s.dev.cue n).drivesLow ≠ level.getLsbD n.val) &&
          decide ((s.dev.cue n).polarity = if level.getLsbD n.val then .low else .high)
        exec (.cueSet tag [mask, level]) s = .next u ∧
        u = { s with dev := (([0, 1, 2, 3, 4, 5, 6, 7] : List CueNo).foldl
            (fun (v : Device) n => if edge n then v.raise .cueEdge (.cueEdge (BitVec.ofNat 8 (2 ^ n.val)) n) else v)
            { s.dev with cues := cs }).answer tag 0x72 .ok [applied] } ∧
        (∀ c, Device.KeepsRest c { s.dev with cues := cs } u.dev) ∧ u.dev.ops = s.dev.ops ∧
        u.dev.dropLog = s.dev.dropLog ∧ u.dev.overflow = s.dev.overflow ∧
        ((∀ n, (s.dev.cue n).inputOn = false) →
          u = { s with dev := ({ s.dev with cues := cs } : Device).answer tag 0x72 .ok [applied] }) ∧
        ∀ n : CueNo,
          applied.getLsbD n.val = (mask.getLsbD n.val && decide ((s.dev.cue n).function = .general)) ∧
          cs[n] = if applied.getLsbD n.val then { s.dev.cue n with drivesLow := level.getLsbD n.val } else s.dev.cue n)

/-! ## Fields -/

/-- R1, R5, R14: a field start on a channel that is OFF, READY or STOPPING changes nothing; one on a RUNNING channel with
a field in intake does what that field's end and then the field start would do; a wrong standard on a RUNNING channel is
a loss (R16), which leaves it HOLDING with the input WRONG_STANDARD and what was pending on it settled: CADENCE is raised
with LOSS when the cleared tracker's state name changes (R85), then INPUT with HOLDING and WRONG_STANDARD, and then come
the notices and replies of the settling (`Channel.settling`, R155).  On a HOLDING one it changes an ABSENT input to
WRONG_STANDARD, raising INPUT, and is otherwise without effect.  That the replies come last is the model's choice (log
6). -/
def Obligations.FieldStartNotTakenIn : Prop :=
  ∀ (s : State) (t : Ticks) (c : Chan) (label : Label), s.dev.Quiet →
    let ch := s.dev.chan c
    let d := s.dev.arrive t
    (ch.state ≠ .running → ch.state ≠ .holding → exec (.fieldStart t c label) s = .next { s with dev := d }) ∧
    (ch.state = .running → ∃ v, exec (.fieldEnd t (.latest c)) s = .next v ∧
      exec (.fieldStart t c label) s = exec (.fieldStart t c label) v) ∧
    (ch.state = .running → ch.intake.field = none → label.system ≠ ch.settings.system →
      ∃ u, exec (.fieldStart t c label) s = .next u ∧ Device.KeepsRest c d u.dev ∧
        u.dev.dropLog = d.dropLog ∧ u.dev.overflow = d.overflow ∧
        (u.dev.chan c).state = .holding ∧ (u.dev.chan c).intake.input = .wrongStandard ∧
        (u.dev.chan c).intake.timeout = none ∧ (u.dev.chan c).intake.field = none ∧
        (u.dev.chan c).intake.nextSeq = ch.intake.nextSeq ∧
        (s.dev.OpsDistinct →
          let lost := ch.lost d.now .wrongStandard
          u.dev.chan c = lost.settled s.dev c ∧
          u.dev = lost.settling s.dev c (((d.setChan c (lost.settled s.dev c)).cadenceTold c ch.tracker lost.tracker
            .loss).raise (.input c) (.input .holding .wrongStandard))) ∧
        (s.dev.OpsFit → ∀ k : OpName, k = .commit ∨ k = .refresh ∨ k = .flush → u.dev.isPending k c = false)) ∧
    (ch.state = .holding → label.system ≠ ch.settings.system → exec (.fieldStart t c label) s =
      .next { s with dev := (if ch.intake.input = .absent then
          (d.setChan c { ch with intake := { ch.intake with input := .wrongStandard } }).raise (.input c)
            (.input .holding .wrongStandard)
        else d) })

/-- R5 to R9, R17, R22, R24, R32, R33, R35, R43, R53, R82, R83, R101, R103: a field start that takes its field in, on a
RUNNING channel with no field in intake or on a HOLDING one.  After a loss the channel is RUNNING with the input
NORMAL, raised with INPUT and RESTORED, the hold count 0 and a picture awaited (R137).  The sequence counter
advances, and the oldest of five fields leaves the ring; a pending commit is swapped in; the selection is looked up;
the context reloads when it is empty, the id changes or a refresh is pending; the tracker is told of a change of
mode; an edit marks the ring stale, clears the discard flag and the tracker, and raises EDIT with the new field's
count and the first reason that holds in R7's order: FIELD_DISCARDED, TC_JUMP, PARITY_REPEAT, PLAN_MARK, CUE_MARK; a
pending flush is performed; the new field joins the ring with the window memory, which is then spent, and its
concealment source is chosen; the edit mark is cleared.  The field is a reference frame start of INPUT (R124, R126,
R128, R130), and where that makes an output frame start the synchroniser shows its next frame (R135);
HouseStartSetsFamilyAndLocks says what `referenceStart` raises and answers.  CADENCE is raised where the mode, the
edit or the flush changes the state's name; each commit, refresh and flush that was pending ends there with its
reply (R32, R48, R106, R155; ReplyEntersQueue says which), and none is pending afterwards.  The order among notices
and replies is log 6's.  That the field timeout is 1.5 periods of R124 in ticks is the model's reading (log 3), and
so is that the reference frame start comes last (log 7). -/
def Obligations.FieldStartTakesFieldIn : Prop :=
  ∀ (s : State) (t : Ticks) (c : Chan) (label : Label), s.dev.Quiet → s.dev.OpsDistinct →
    let ch := s.dev.chan c
    let d := s.dev.arrive t
    let y := ch.settings.system
    let count := labelCount ch.settings label
    let reader := if s.dev.isPending .commit c then ch.reader.swap else ch.reader
    let selection := reader.lookup count
    let requested := (selection.map (·.profile)).getD ch.settings.defaultProfile
    let reloaded := reloadContext s.dev.profiles ch.settings requested
    let context := match ch.context with
      | some x => if x.requested = requested ∧ s.dev.isPending .refresh c = false then x else reloaded
      | none => reloaded
    let phase := forcedPhase context.params count selection ch.reader.phaseMemory
    let planEdit := count.isSome &&
      selection.any fun x => x.edit && decide (reader.selection.map (·.startCount) ≠ some x.startCount)
    let edited := ch.intake.discard || jumpTest ch.reader.lastCount count ||
      decide (ch.intake.prevIdentity = some label.identity) || planEdit || ch.intake.editMark
    let told := ch.tracker.told ch.context (some context) phase
    let room := if 5 ≤ ch.intake.ring.length then ch.intake.ring.tail else ch.intake.ring
    let marked : Channel := { ch with
      intake := { ch.intake with ring := if edited then room.map (fun f => { f with stale := true }) else room }
      tracker := if edited then told.restarted else told }
    let flushed := match s.dev.flushPending c with
      | some asked => marked.flushed asked
      | none => marked
    let older := flushed.intake.ring
    let source := if context.params.conceal = false then ConcealSource.none
      else if older.dropLast.getLast?.any (fun p => !p.stale && decide (p.identity = label.identity)) then .previousFrame
      else .lineAbove
    let sync := if ch.state = .holding then { ch.sync with hold := 0, awaited := true } else ch.sync
    let referred := ch.gen.referred y .input (ch.gen.lastInput.map (d.now - ·)) d.now
    let frame := referred.2 && decide (ch.gen.lastOut + y.guard ≤ d.now)
    let reason : EditReason := if ch.intake.discard then .fieldDiscarded
      else if jumpTest ch.reader.lastCount count then .tcJump
      else if ch.intake.prevIdentity = some label.identity then .parityRepeat
      else if planEdit then .planMark
      else .cueMark
    let notified := fun u : Device =>
      let u := if ch.state = .holding then u.raise (.input c) (.input .running .restored) else u
      let u := s.dev.endsPending .commit c none (.committed ch.reader.staged.entries.length) u
      let u := (s.dev.endsPending .refresh c none .none u).cadenceTold c ch.tracker told .forced
      let u := if edited then
          (u.cadenceTold c told marked.tracker .edit).raise (.edit c) (.edit reason (count.map (·.count)))
        else u
      match s.dev.flushPending c with
      | some asked => s.dev.endsPending .flush c (some (marked.flushScope asked)) .none
          (u.cadenceTold c marked.tracker flushed.tracker .flush)
      | none => u
    (ch.state = .running ∧ ch.intake.field = none) ∨ ch.state = .holding → label.system = y →
    ∃ u, exec (.fieldStart t c label) s = .next u ∧ Device.KeepsRest c d u.dev ∧
      u.dev.dropLog = d.dropLog ∧ u.dev.overflow = d.overflow ∧
      u.dev.chan c =
        { state := .running
          settings := ch.settings
          intake :=
            { field := some ⟨0, source, [], 0, false, [], false⟩
              ring := older ++
                [⟨ch.intake.nextSeq, label.identity, count.map (·.count), false, flushed.recon.windowMemory, false,
                  phase, context, []⟩]
              nextSeq := ch.intake.nextSeq + 1
              accepted := ch.intake.accepted
              discard := false
              prevIdentity := some label.identity
              editMark := false
              timeout := some (d.now + y.lossTime)
              input := if ch.state = .holding then .normal else ch.intake.input }
          reader := { reader with selection := selection, lastCount := count, phaseMemory := phase }
          context := some context
          dropState := ch.dropState
          tracker := flushed.tracker
          recon := { ch.recon with
            windowMemory := flushed.recon.windowMemory.bind fun w =>
              if w.remaining ≤ 1 then none else some { w with remaining := w.remaining - 1 } }
          sync := if frame then
              ({ ch with context := some context, sync := sync }.runningFrame (ch.sync.freeze || s.dev.cueFreeze c)).1
            else sync
          gen := { referred.1 with
            lastOut := if frame then d.now else ch.gen.lastOut
            lastInput := some d.now } } ∧
      u.dev = (notified (d.setChan c { u.dev.chan c with
          sync := sync, gen := { ch.gen with lastInput := some d.now } })).referenceStart c .input
        (ch.gen.lastInput.map (d.now - ·)) ∧
      (s.dev.OpsFit → ∀ k : OpName, k = .commit ∨ k = .refresh ∨ k = .flush → u.dev.isPending k c = false)

/-- R1, R10, R53 to R55, R58, R59, R61: a line that arrives with no field in intake, or past the field's last line, is only
counted at most; any other is stored, with the samples of its dropout runs replaced by those of the line they are
concealed from; with source LINE_ABOVE the runs of line 0 wait, and are replaced by the samples of line 1 once that has
been concealed.  The runs are recorded from left to right, the one that raises BURST raises it, the records whose last line
is the line before this one then close into the dropout log in the order they were opened, and nothing else of the part
changes. -/
def Obligations.LineArrivalStoresLine : Prop :=
  ∀ (s : State) (t : Ticks) (c : Chan) (line : Line), s.dev.Quiet →
    let ch := s.dev.chan c
    let d := s.dev.arrive t
    ((ch.state ≠ .running ∧ ch.state ≠ .holding) ∨ ch.intake.field = none →
      exec (.lineArrival t c line) s = .next { s with dev := d }) ∧
    (∀ f slot, ch.state = .running ∨ ch.state = .holding → ch.intake.field = some f →
      ch.intake.ring.getLast? = some slot →
      (ch.settings.system.fieldLines ≤ f.lineCount → exec (.lineArrival t c line) s = .next { s with
        dev := d.setChan c
          { ch with intake := { ch.intake with field := some { f with lineCount := f.lineCount + 1 } } } }) ∧
      (f.lineCount < ch.settings.system.fieldLines →
        let l := f.lineCount
        let runs := lineRuns slot.context.params line
        let recorded := recordRuns c slot l { f with lineCount := l + 1 } runs
        let records := recorded.1.openRecords
        let replaced := fun (spans : List Span) (dst src out : Line) =>
          (∀ i : Fin 720, out.y[i] =
            if spans.any (fun r => decide (r.first ≤ i.val ∧ i.val ≤ r.last)) then src.y[i] else dst.y[i]) ∧
          (∀ j : Fin 360, out.cb[j] =
            if spans.any (fun r => decide (r.first / 2 ≤ j.val ∧ j.val ≤ r.last / 2)) then src.cb[j] else dst.cb[j]) ∧
          ∀ j : Fin 360, out.cr[j] =
            if spans.any (fun r => decide (r.first / 2 ≤ j.val ∧ j.val ≤ r.last / 2)) then src.cr[j] else dst.cr[j]
        ∃ ls stored,
          ls.length = slot.lines.length + 1 ∧ ls.getLast? = some stored ∧
          (l ≠ 1 ∨ f.source ≠ .lineAbove → ls = slot.lines ++ [stored]) ∧
          (∀ line0, l = 1 → f.source = .lineAbove → slot.lines = [line0] →
            ∃ filled, ls = [filled, stored] ∧ replaced f.pendingLine0 line0 stored filled) ∧
          (f.source = .none ∨ runs = [] ∨ (f.source = .lineAbove ∧ l = 0) → stored = line) ∧
          (∀ src,
            (f.source = .previousFrame ∧ ∃ p, secondPreviousField ch.intake.ring = some p ∧ p.lines[l]? = some src) ∨
              (f.source = .lineAbove ∧ 0 < l ∧ slot.lines[l - 1]? = some src) → replaced runs line src stored) ∧
          (let placed := d.setChan c { ch with
            intake := { ch.intake with
              field := some
                { recorded.1 with
                  openRecords := records.filter fun r => decide (r.lastLine + 1 ≠ l)
                  pendingLine0 := if f.source = .lineAbove ∧ l = 0 then runs else []
                  concealed := f.concealed || (decide (f.source ≠ .none) && !runs.isEmpty) }
              ring := ch.intake.ring.dropLast ++ [{ slot with lines := ls }] } }
          exec (.lineArrival t c line) s = .next { s with
            dev := (records.filter fun r => decide (r.lastLine + 1 = l)).foldl Device.logRecord
              (if recorded.2 then placed.raise (.burst c) (.burst slot.seq) else placed) })))

/-- R52: the runs of a line are exactly the maximal sequences of samples below the drop level that are at least the drop
run long, in ascending order.  R56, R57, R59: the runs are recorded one after another; a run joins the first open record
whose last line is the line before it and whose span overlaps it; where none does it opens a record, or, when eight have
been opened in the field, opens none, and the first such run raises BURST.  R62, R63: a record handed to the log is
appended while the log holds fewer than 256, and raises LOG_WATERMARK with the new count when that is the watermark;
otherwise it is discarded and the overflow flag set, which raises LOG_OVERFLOW when the flag was clear. -/
def Obligations.RunsAreMaximal : Prop :=
  (∀ (p : Profile) (line : Line),
    (∀ r : Span, r ∈ lineRuns p line ↔
      r.first ≤ r.last ∧ r.last < 720 ∧ p.dropRun ≤ r.last - r.first + 1 ∧
      (∀ i : Fin 720, r.first ≤ i.val → i.val ≤ r.last → line.y[i].toNat < p.dropLevel) ∧
      (∀ i : Fin 720, i.val + 1 = r.first ∨ i.val = r.last + 1 → p.dropLevel ≤ line.y[i].toNat)) ∧
    (lineRuns p line).Pairwise fun a b => a.last < b.first) ∧
  (∀ (c : Chan) (slot : Slot) (l : Nat) (f : InField) (run : Span),
    let takes := fun r : DropRecord => r.lastLine + 1 = l ∧ r.span.first ≤ run.last ∧ run.first ≤ r.span.last
    (∀ before r after, f.openRecords = before ++ r :: after → (∀ q ∈ before, ¬ takes q) → takes r →
      recordRun c slot l f run =
        ({ f with
            openRecords := before ++
              { r with
                lineCount := r.lineCount + 1
                span := ⟨min r.span.first run.first, max r.span.last run.last⟩ } :: after }, false)) ∧
    ((∀ q ∈ f.openRecords, ¬ takes q) →
      (f.opened < 8 → recordRun c slot l f run =
        ({ f with
            openRecords := f.openRecords ++
              [⟨c, slot.seq, slot.fieldCount, slot.identity, l, 1, run, f.source⟩]
            opened := f.opened + 1 }, false)) ∧
      (8 ≤ f.opened → recordRun c slot l f run = ({ f with burst := true }, !f.burst))) ∧
    recordRuns c slot l f [] = (f, false) ∧
    (∀ rest,
      let one := recordRun c slot l f run
      let others := recordRuns c slot l one.1 rest
      recordRuns c slot l f (run :: rest) = (others.1, one.2 || others.2))) ∧
  (∀ (d : Device) (r : DropRecord),
    let count := d.dropLog.length + 1
    let appended := { d with dropLog := d.dropLog ++ [r] }
    (d.dropLog.length < 256 →
      (count = d.watermark → d.logRecord r = appended.raise .logWatermark (.logWatermark count)) ∧
      (count ≠ d.watermark → d.logRecord r = appended)) ∧
    (256 ≤ d.dropLog.length →
      (d.overflow = false →
        d.logRecord r = ({ d with overflow := true } : Device).raise .logOverflow .logOverflow) ∧
      (d.overflow = true → d.logRecord r = d)))

/-- R11 to R13: at a field end a field at most two lines short or long is kept: padded with copies of its last line, its
malformed flag set when its count is not the standard one, counted, its dropout state handed on, the tracker stepped on
the signature taken of it (R68, R74), with CADENCE raised when its state's name changes (R87), and the reconstruction of
the field before it begun unless it has been, with the cadence after that step (R89); any other is removed and the discard
flag set.  In both cases the records that are open close into the dropout log, in the order they were opened, which is the
model's choice (log 6).  Without a field in intake nothing happens, and nothing at the late end of a field that a field
start has cut off (R14; that the row says which field ends is the model's reading, log 25). -/
def Obligations.FieldEndKeepsOrRemoves : Prop :=
  ∀ (s : State) (t : Ticks) (c : Chan), s.dev.Quiet →
    let ch := s.dev.chan c
    let d := s.dev.arrive t
    exec (.fieldEnd t (.cutOff c)) s = .next { s with dev := d } ∧
    ((ch.state ≠ .running ∧ ch.state ≠ .holding) ∨ ch.intake.field = none →
      exec (.fieldEnd t (.latest c)) s = .next { s with dev := d }) ∧
    (∀ f slot, ch.state = .running ∨ ch.state = .holding → ch.intake.field = some f →
      ch.intake.ring.getLast? = some slot →
      let y := ch.settings.system
      let n := y.fieldLines
      let before := ch.intake.ring.dropLast
      let closed := f.openRecords.foldl Device.logRecord d
      (n ≤ f.lineCount + 2 → f.lineCount ≤ n + 2 →
        let slot' := { slot with
          lines := slot.lines ++ (match slot.lines.getLast? with
            | some last => List.replicate (n - slot.lines.length) last
            | none => [])
          malformed := decide (f.lineCount ≠ n) }
        let stepped := ch.tracker.step slot' (fieldSignature y (before ++ [slot']) slot')
        let begun := before.getLast?.filter fun p => decide (ch.recon.lastBegun ≠ some p.seq)
        let kept := closed.setChan c { ch with
          intake := { ch.intake with field := none, ring := before ++ [slot'], accepted := ch.intake.accepted + 1 }
          dropState := f.concealed
          tracker := stepped.1
          recon := match begun with
            | none => ch.recon
            | some p =>
              { ch.recon with
                jobs := ch.recon.jobs ++
                  [⟨before.dropLast.dropLast.getLast?, before.dropLast.getLast?, p, some slot',
                    some stepped.1.cadence⟩]
                workStart := if ch.recon.jobs = [] then d.now else ch.recon.workStart
                lastBegun := some p.seq } }
        exec (.fieldEnd t (.latest c)) s = .next { s with
          dev := if ch.tracker.cadence.code = stepped.1.cadence.code then kept
            else kept.raise (.cadence c) (.cadence stepped.1.cadence stepped.2) }) ∧
      (f.lineCount + 2 < n ∨ n + 2 < f.lineCount → exec (.fieldEnd t (.latest c)) s = .next { s with
        dev := closed.setChan c
          { ch with intake := { ch.intake with field := none, ring := before, discard := true } } }))

/-- R15, R16, R155: when the armed field timeout of a RUNNING channel has run out the input is lost: the field in intake
is let go and its open records close into the dropout log in the order they were opened (R60; the order is log 6's), the
last kept field is rebuilt unless its reconstruction has begun and stays in the ring, stale and alone, the tracker is
cleared, and the channel is HOLDING with the input ABSENT and the hold count 0.  After the records come CADENCE
with LOSS when the state's name changes (R85) and INPUT with HOLDING and ABSENT.  As it leaves RUNNING the commit, the
refresh and the flush pending on it are settled in that order (R34, R49, R105), with the notices and replies of
`Channel.settling` (ReplyEntersQueue says what each reply is), and none of them is pending afterwards; without one the
plans, the context and the window memory stay.  On any other channel, disarmed, or armed afresh to a later
deadline, the expiry does not happen. -/
def Obligations.TimeoutDeclaresLoss : Prop :=
  ∀ (s : State) (t : Ticks) (c : Chan), s.dev.Quiet →
    let ch := s.dev.chan c
    let d := s.dev.arrive t
    let lost := ch.lost d.now .absent
    (ch.state ≠ .running ∨ (∀ deadline, ch.intake.timeout = some deadline → d.now < deadline) →
      exec (.fieldTimeoutExpiry t c) s = .next { s with dev := d }) ∧
    (∀ deadline, ch.state = .running → ch.intake.timeout = some deadline → deadline ≤ d.now →
      ∃ u reader context window cadence, exec (.fieldTimeoutExpiry t c) s = .next u ∧
        Device.KeepsRest c d u.dev ∧ d.Logged ch.intake.openRecords u.dev ∧
        u.dev.chan c = { lost with
          reader := reader
          context := context
          tracker := ⟨cadence, [], 0⟩
          recon := { lost.recon with windowMemory := window } } ∧
        (s.dev.isPending .commit c = false → reader = ch.reader) ∧
        (s.dev.isPending .flush c = false → window = ch.recon.windowMemory) ∧
        (s.dev.isPending .refresh c = false → context = ch.context ∧ cadence = lost.tracker.cadence) ∧
        (s.dev.OpsDistinct → u.dev.chan c = lost.settled s.dev c ∧
          u.dev = lost.settling s.dev c ((((ch.intake.openRecords.foldl Device.logRecord d).setChan c
            (lost.settled s.dev c)).cadenceTold c ch.tracker lost.tracker .loss).raise (.input c)
              (.input .holding .absent))) ∧
        (s.dev.OpsFit → ∀ k : OpName, k = .commit ∨ k = .refresh ∨ k = .flush → u.dev.isPending k c = false))

/-! ## Frames -/

/-- R90, R91, R107, R134: when the reconstruction at work completes, its field n−2 leaves the ring, or at a rebuild after
a loss the field itself; while the channel is RUNNING or HOLDING the composed frame joins the queue, from which a third
pushes the oldest, counted as a drop with SLIP unless the channel is RUNNING and frozen; in any other state the frame is
discarded. -/
def Obligations.ReconstructionCompletes : Prop :=
  ∀ (s : State) (t : Ticks) (c : Chan), s.dev.Quiet →
    let ch := s.dev.chan c
    let d := s.dev.arrive t
    (ch.recon.jobs = [] → exec (.reconstructionCompletion t c) s = .next { s with dev := d }) ∧
    (∀ v rest, ch.recon.jobs = v :: rest →
      let gone := if v.cadence.isSome then v.prev2.map (·.seq) else some v.field.seq
      let intake := { ch.intake with ring := ch.intake.ring.filter fun f => decide (some f.seq ≠ gone) }
      let recon := { ch.recon with jobs := rest, workStart := d.now }
      let full := decide (2 ≤ ch.sync.queue.length)
      let counted := full && !(decide (ch.state = .running) && (ch.sync.freeze || s.dev.cueFreeze c))
      let drops := if counted then min 65535 (ch.sync.drops + 1) else ch.sync.drops
      (ch.state = .running ∨ ch.state = .holding → exec (.reconstructionCompletion t c) s = .next { s with
        dev := (let d' := d.setChan c { ch with
            intake := intake
            recon := recon
            sync := { ch.sync with
              queue := (if full then ch.sync.queue.tail else ch.sync.queue) ++ [compose ch.settings.system v]
              awaited := false
              drops := drops } };
          if counted then d'.raise (.slip c) (.slip .drop ch.sync.repeats drops) else d') }) ∧
      (ch.state ≠ .running → ch.state ≠ .holding → exec (.reconstructionCompletion t c) s = .next { s with
        dev := d.setChan c { ch with intake := intake, recon := recon } }))

/-- R126, R135 to R138, R146: an output frame start that the generator makes by its own period puts on air what the
channel's state says, and the next is counted from it: the nominal period in FREE, the kept one in HOLDOVER, in ACQUIRE as
in the prior state.  Before that period has passed since the last, and in LOCKED, whose output frame starts are those of
its reference frame starts, none is made by its row.  In STOPPING it completes the stop: the channel is READY, its blocks
hold the values of R146's table, of the cadence an AUTO state becomes SEEK and a forced one keeps its phase (R85), a change
of cadence raises CADENCE with FLUSH, and the stop operation leaves the table with an OK reply.  The same holds of an
output frame start that a reference frame start or a loss makes (`Device.outputFrame`).  The 0 of a reconstructor without
work is the model's choice (log 11), that a HOLDOVER without a kept period counts the nominal one its reading (log 5), and
so is what the row of a period not yet run out does (log 12). -/
def Obligations.OutputFrameByState : Prop :=
  ∀ (s : State) (t : Ticks) (c : Chan), s.dev.Quiet →
    let ch := s.dev.chan c
    let d := s.dev.arrive t
    let gen := { ch.gen with lastOut := d.now }
    let slate := OutFrame.slate ((ch.context.map fun x => x.params.border).getD ⟨64, 512, 512⟩)
    let again := match ch.sync.onAir with
      | .slate _ => slate
      | .picture p => .picture p
      | .black => .black
    let frozen := ch.sync.freeze || s.dev.cueFreeze c
    let nominal := ch.settings.system.period
    let period : Option Ticks := match ch.gen.state with
      | .settled .free => some nominal
      | .settled (.locked _) => none
      | .settled (.holdover _) => some (ch.gen.kept.getD nominal)
      | .acquire a => match a.prior with
        | .free => some nominal
        | .locked _ => none
        | .holdover _ => some (a.priorKept.getD nominal)
    let made := ∃ p, period = some p ∧ ch.gen.lastOut + p ≤ d.now
    let starts := fun dev : Device =>
      d.outputFrame c = dev ∧ (made → exec (.outputFrameStart t c) s = .next { s with dev := dev })
    let shows := fun sync : Synchroniser => starts (d.setChan c { ch with gen := gen, sync := sync })
    (¬ made → exec (.outputFrameStart t c) s = .next { s with dev := d }) ∧
    (ch.state = .off ∨ ch.state = .ready → shows { ch.sync with onAir := .black }) ∧
    (ch.state = .running →
      (frozen = true → ch.sync.seen = true → shows { ch.sync with onAir := again }) ∧
      (frozen = false ∨ ch.sync.seen = false →
        (∀ p rest, ch.sync.queue = p :: rest → shows { ch.sync with onAir := .picture p, queue := rest, seen := true }) ∧
        (ch.sync.queue = [] → ch.sync.seen = false → shows { ch.sync with onAir := slate }) ∧
        (ch.sync.queue = [] → ch.sync.seen = true → ch.sync.awaited = true → shows { ch.sync with onAir := again }) ∧
        (ch.sync.queue = [] → ch.sync.seen = true → ch.sync.awaited = false →
          let repeats := min 65535 (ch.sync.repeats + 1)
          starts ((d.setChan c { ch with gen := gen, sync := { ch.sync with onAir := again, repeats := repeats } }).raise
            (.slip c) (.slip .repeat_ repeats ch.sync.drops))))) ∧
    (ch.state = .holding →
      (∀ p rest, ch.sync.queue = p :: rest → shows { ch.sync with onAir := .picture p, queue := rest, seen := true }) ∧
      (ch.sync.queue = [] → ch.sync.hold < ch.settings.holdLimit →
        shows { ch.sync with onAir := again, hold := ch.sync.hold + 1 }) ∧
      (ch.sync.queue = [] → ch.settings.holdLimit ≤ ch.sync.hold → shows { ch.sync with onAir := slate })) ∧
    (ch.state = .stopping →
      let ended := d.setChan c { ch with
        state := .ready
        intake := { ch.intake with
          field := none, ring := [], discard := false, prevIdentity := none, timeout := none, input := .normal }
        reader := { ch.reader with selection := none, lastCount := none, phaseMemory := none }
        dropState := false
        tracker := ch.tracker.restarted
        recon := ⟨[], 0, none, none⟩
        sync := { ch.sync with queue := [], onAir := slate }
        gen := gen }
      let raised := if ch.tracker.cadence.code = ch.tracker.restarted.cadence.code then ended
        else ended.raise (.cadence c) (.cadence ch.tracker.restarted.cadence .flush)
      ∃ dev, starts dev ∧ Device.KeepsRest c d dev ∧ dev.chan c = ended.chan c ∧ dev.dropLog = d.dropLog ∧
        dev.overflow = d.overflow ∧
        ∀ tag, s.dev.OpsFit → ⟨tag, .stop, [⟨c, .clear, none⟩], .none⟩ ∈ s.dev.ops →
          dev = ({ raised with ops := s.dev.ops.filter fun o => decide (o.tag ≠ tag) } : Device).answer tag 0x12 .ok [])

/-! ## Output timing -/

/-- R125, R126, R128: a house frame start takes its interval from the one before it and sets the house family by the
bands; the house timeout sets NONE once 810,000 ticks have passed since the last one, and earlier does not happen.  A
generator that is FREE or follows its input makes nothing of it; one LOCKED
to it keeps an interval within tolerance and makes an output frame start when half a period has passed since the last; one
in HOLDOVER of it begins an acquisition with a run of one; one in an
acquisition whose target is HOUSE, from a prior state that does not follow HOUSE, counts it in its run, and the eighth in
a row within tolerance declares lock with its interval kept.  In every state the generator becomes what `Generator.referred`
says of the start, and nothing else of the channel changes but by the output frame start that is made where one is asked
for and half a period has passed (OutputFrameByState says what it does).  The start comes to the four channels in ascending
order (log 6).  Of a start of either source on a channel: TIMING is raised with ACQUIRE and REACQUIRE where it ends a
HOLDOVER, and with LOCKED and LOCK where lock is declared, which also ends a commanded TIMING_SELECT with OK, LOCK, the
source and LOCKED, its slot free again (R128); in every other case nothing is raised. -/
def Obligations.HouseStartSetsFamilyAndLocks : Prop :=
  ∀ (s : State) (t : Ticks), s.dev.Quiet →
    let d := s.dev.arrive t
    (∀ last, d.lastHouse = some last → last + 810000 ≤ d.now →
      exec (.houseFamilyTimeout t) s = .next { s with dev := { d with houseFamily := .none, lastHouse := none } }) ∧
    ((∀ last, d.lastHouse = some last → d.now < last + 810000) →
      exec (.houseFamilyTimeout t) s = .next { s with dev := d }) ∧
    (∀ (v : Device) (c : Chan) (src : RefSource) (interval : Option Ticks),
      let ch := v.chan c
      let referred := ch.gen.referred ch.settings.system src interval v.now
      let begun := v.setChan c { ch with gen := referred.1 }
      let framed := if referred.2 = true ∧ ch.gen.lastOut + ch.settings.system.guard ≤ v.now then begun.outputFrame c
        else begun
      let started := v.referenceStart c src interval
      (ch.gen.state = .settled (.holdover src) →
        started = begun.raise (.timing c) (.timing src.source .acquire .reacquire)) ∧
      (∀ a, ch.gen.state = .acquire a → referred.1.state = .settled (.locked src) →
        let told := framed.raise (.timing c) (.timing src.source .locked .lock)
        (a.commanded = false → started = told) ∧
        (∀ tag, a.commanded = true → v.OpsFit → ⟨tag, .timing, [⟨c, .clear, none⟩], .none⟩ ∈ v.ops →
          started = ({ told with ops := told.ops.filter fun o => decide (o.tag ≠ tag) } : Device).answer tag 0x42 .ok
            [0x02, src.source.code, 0x02])) ∧
      (ch.gen.state ≠ .settled (.holdover src) → (∀ a, ch.gen.state = .acquire a → ∃ a', referred.1.state = .acquire a') →
        started = framed)) ∧
    ∃ u, exec (.houseFrameStart t) s = .next u ∧ u.dev.lastHouse = some d.now ∧ u.dev.profiles = d.profiles ∧
      (let interval := d.lastHouse.map (d.now - ·)
      u.dev = ([0, 1, 2, 3] : List Chan).foldl (fun v c => v.referenceStart c .house interval)
        { d with houseFamily := u.dev.houseFamily, lastHouse := some d.now }) ∧
      u.dev.cues = d.cues ∧ u.dev.dropLog = d.dropLog ∧
      (d.lastHouse = none → u.dev.houseFamily = .none) ∧
      (∀ last, d.lastHouse = some last →
        let i := d.now - last
        (537300 ≤ i ∧ i ≤ 542700 → u.dev.houseFamily = .f50) ∧
        (448198 ≤ i ∧ i ≤ 452702 → u.dev.houseFamily = .f5994) ∧
        (i < 448198 ∨ (452702 < i ∧ i < 537300) ∨ 542700 < i → u.dev.houseFamily = .none)) ∧
      ∀ c,
        let ch := s.dev.chan c
        (ch.gen.state = .settled .free ∨ ch.gen.state = .settled (.locked .input) ∨
            ch.gen.state = .settled (.holdover .input) → u.dev.chan c = ch) ∧
        (let referred := ch.gen.referred ch.settings.system .house (d.lastHouse.map (d.now - ·)) d.now
        let frame := referred.2 && decide (ch.gen.lastOut + ch.settings.system.guard ≤ d.now)
        let begun := { ch with gen := referred.1 }
        u.dev.chan c = (if frame then ((d.setChan c begun).outputFrame c).chan c else begun) ∧
        (u.dev.chan c).gen = { referred.1 with lastOut := if frame then d.now else ch.gen.lastOut }) ∧
        (let inBand := d.lastHouse.any fun last =>
          decide (ch.settings.system.bandLow ≤ d.now - last ∧ d.now - last ≤ ch.settings.system.bandHigh)
        (ch.gen.state = .settled (.locked .house) → (u.dev.chan c).gen =
          { ch.gen with
            kept := if inBand then d.lastHouse.map (d.now - ·) else ch.gen.kept
            lastOut := if ch.gen.lastOut + ch.settings.system.guard ≤ d.now then d.now else ch.gen.lastOut }) ∧
        (ch.gen.state = .settled (.holdover .house) → u.dev.chan c = { ch with
          gen := { ch.gen with
            state := .acquire ⟨false, .house, .holdover .house, ch.gen.kept, 1, d.now, true⟩ } }) ∧
        (∀ a, ch.gen.state = .acquire a → a.target = .house → a.prior ≠ .locked .house →
          let run := if a.seen && inBand then a.run + 1 else 1
          (run < 8 → u.dev.chan c =
            { ch with gen := { ch.gen with state := .acquire { a with run := run, seen := true } } }) ∧
          (8 ≤ run → (u.dev.chan c).gen.state = .settled (.locked .house) ∧
            (u.dev.chan c).gen.kept = d.lastHouse.map (d.now - ·))))

/-- R129, R130: in LOCKED the loss of the reference, after 1.5 periods without a reference frame start of its source,
makes HOLDOVER on the kept period and one output frame start, and then raises TIMING with HOLDOVER and
REFERENCE_LOST; a LOCKED prior state of an acquisition becomes HOLDOVER in the same way, without TIMING; an
acquisition whose window of 64 periods ends goes back to its prior state and the period it remembers, and raises
TIMING with that state and the first reason that holds: ABSENT when no start of the target was seen, WRONG_FAMILY
when the target is HOUSE and the house family is the other system's, otherwise UNSTABLE; a commanded one ends its
TIMING_SELECT with FAILED, the reason and the source and state now in force, and frees its slot (R155).  Earlier,
and in any other timing state, these do not happen.  The channel changes by that output frame start alone
(OutputFrameByState says what it does).  That silence is counted from the last reference frame start of the source,
and is past where the reading of that one has been given up, is the model's reading (log 19). -/
def Obligations.ReferenceLossAndWindowEnd : Prop :=
  ∀ (s : State) (t : Ticks) (c : Chan), s.dev.Quiet →
    let g := (s.dev.chan c).gen
    let d := s.dev.arrive t
    let y := (s.dev.chan c).settings.system
    let started := fun timing : TimingState =>
      (d.setChan c { s.dev.chan c with gen := { g with state := timing } }).outputFrame c
    let framed := fun (timing : TimingState) (u : State) => u.dev.chan c = (started timing).chan c
    let silent := fun src : RefSource => ∀ last, d.lastReference c src = some last → last + y.lossTime ≤ d.now
    (∀ src, g.state = .settled (.locked src) → silent src → ∃ u, exec (.referenceLost t c) s = .next u ∧
      Device.KeepsRest c d u.dev ∧ u.dev.dropLog = d.dropLog ∧
      (u.dev.chan c).gen = ⟨.settled (.holdover src), g.kept, d.now, g.lastInput⟩ ∧ framed (.settled (.holdover src)) u ∧
      u.dev = (started (.settled (.holdover src))).raise (.timing c) (.timing src.source .holdover .referenceLost)) ∧
    ((∀ src, g.state = .settled (.locked src) → ¬ silent src) →
      exec (.referenceLost t c) s = .next { s with dev := d }) ∧
    (∀ a src, g.state = .acquire a → a.prior = .locked src → silent src → ∃ u, exec (.priorReferenceLost t c) s = .next u ∧
      Device.KeepsRest c d u.dev ∧ u.dev.dropLog = d.dropLog ∧
      (u.dev.chan c).gen = ⟨.acquire { a with prior := .holdover src }, g.kept, d.now, g.lastInput⟩ ∧
      framed (.acquire { a with prior := .holdover src }) u ∧
      u.dev = started (.acquire { a with prior := .holdover src })) ∧
    ((∀ a src, g.state = .acquire a → a.prior = .locked src → ¬ silent src) →
      exec (.priorReferenceLost t c) s = .next { s with dev := d }) ∧
    (∀ a, g.state = .acquire a → a.began + y.window ≤ d.now → ∃ u, exec (.acquisitionWindowEnd t c) s = .next u ∧
      Device.KeepsRest c d u.dev ∧ u.dev.dropLog = d.dropLog ∧
      u.dev.chan c = { s.dev.chan c with gen := ⟨.settled a.prior, a.priorKept, g.lastOut, g.lastInput⟩ } ∧
      (let reason : TimingReason := if a.seen = false then .absent
        else if a.target = .house ∧ d.houseFamily = (match y with
          | .s625 => .f5994
          | .s525 => .f50) then .wrongFamily
        else .unstable
      let restored : TimingSource × TimingName := match a.prior with
        | .free => (.internal, .free)
        | .locked src => (src.source, .locked)
        | .holdover src => (src.source, .holdover)
      let told := (d.setChan c (u.dev.chan c)).raise (.timing c) (.timing restored.1 restored.2 reason)
      (a.commanded = false → u.dev = told) ∧
      ∀ tag, a.commanded = true → s.dev.OpsFit → ⟨tag, .timing, [⟨c, .clear, none⟩], .none⟩ ∈ s.dev.ops →
        u.dev = ({ told with ops := s.dev.ops.filter fun o => decide (o.tag ≠ tag) } : Device).answer tag 0x42 .failed
          [reason.code, restored.1.code, restored.2.code])) ∧
    ((∀ a, g.state = .acquire a → d.now < a.began + y.window) →
      exec (.acquisitionWindowEnd t c) s = .next { s with dev := d })

/-! ## Cue lines, reset and start-up -/

/-- R178: a change at a cue line with no command waiting.  With the input off, or where the part holds the line low, or
away from the level of the polarity, it is no more than the change at the pin; toward that level it raises CUE_EDGE on a
GENERAL line, sets the edit-mark latch of the channel of an EDIT_MARK line, and does nothing more on any other. -/
def Obligations.CueEdgeByFunction : Prop :=
  ∀ (s : State) (t : Ticks) (n : CueNo) (high : Bool), s.dev.fifo = [] →
    let r := s.dev.cue n
    let moved : Device := { s.dev.arrive t with cueOutside := s.dev.cueOutside.set n high }
    let edge := r.inputOn && !s.dev.drives n && decide (s.dev.cueOutside[n] ≠ high) && decide (high = r.polarity.level)
    let done := fun dev : Device => exec (.cueLineEdge t n high) s = .next { s with dev := dev }
    (edge = false → done moved) ∧
    (edge = true → r.function = .general → done (moved.raise .cueEdge (.cueEdge (BitVec.ofNat 8 (2 ^ n.val)) n))) ∧
    (∀ c, edge = true → r.function = .editMark c →
      done (moved.setChan c
        { s.dev.chan c with intake := { (s.dev.chan c).intake with editMark := true } })) ∧
    (edge = true → r.function ≠ .general → (∀ c, r.function ≠ .editMark c) → done moved)

/-- R181: power-up, a failure of the supply and the assertion of the reset pin each hold every block at its reset
state, whatever the part was doing: the table of section 12.5. The clock, the other pins, and the line rate and cause
of the reset before stay. R182: in reset and STARTING a command frame is ignored, and so is a received byte. What
stays is the model's choice (log 11). -/
def Obligations.ResetHoldsAndLinkIgnores : Prop :=
  ∀ (s : State) (t : Ticks),
    let held := fun (supply pin : Bool) => (.next { s with
      dev := { Device.reset with
        now := max s.dev.now t
        phase := .held
        supplyGood := supply
        pinAsserted := pin
        strap1 := s.dev.strap1
        strap0 := s.dev.strap0
        lineRate := s.dev.lineRate
        cause := s.dev.cause
        chans := .replicate 4 (Channel.reset (max s.dev.now t))
        cueOutside := s.dev.cueOutside } } : Host.Outcome State Fault Refusal)
    exec (.powerUp t) s = held false s.dev.pinAsserted ∧
    exec (.powerFailure t) s = held false s.dev.pinAsserted ∧
    exec (.resetPinAssert t) s = held s.dev.supplyGood true ∧
    (s.dev.phase ≠ .operating → ∀ i f, commandFrame i = some f → exec i s = .next s) ∧
    (s.dev.phase ≠ .operating → s.dev.fifo = [] →
      ∀ b, exec (.receivedByte t b) s = .next { s with dev := s.dev.arrive t })

/-- R181, R182: when the last cause of a reset ends, the straps are sampled, the cause is recorded and the STARTING
period begins; a supply that was good and a pin that was not asserted change nothing; while the other of the two
still holds, so does the reset. When the 40 ms of the STARTING period, 1,080,000 ticks, have passed the hello
message begins, and at no other time. What the supply and the pin do together is the model's reading (log 8), and so
is that the straps come with these rows (log 18). -/
def Obligations.ResetEndsAndStarts : Prop :=
  ∀ (s : State) (t : Ticks) (s1 s0 : Bool),
    let d := s.dev.arrive t
    let rate := if s1 then (if s0 then 2000000 else 921600) else (if s0 then 460800 else 115200)
    let begun := fun cause : ResetCause => (.next { s with
      dev := { d with
        supplyGood := true
        pinAsserted := false
        strap1 := s1
        strap0 := s0
        phase := .starting d.now
        lineRate := rate
        cause := cause
        chans := .replicate 4 (Channel.reset d.now) } } : Host.Outcome State Fault Refusal)
    (s.dev.supplyGood = false → s.dev.pinAsserted = false → exec (.supplyGood t s1 s0) s = begun .power) ∧
    (s.dev.supplyGood = false → s.dev.pinAsserted = true → exec (.supplyGood t s1 s0) s =
      .next { s with dev := { d with supplyGood := true, strap1 := s1, strap0 := s0 } }) ∧
    (s.dev.supplyGood = true → exec (.supplyGood t s1 s0) s = .next { s with dev := d }) ∧
    (s.dev.pinAsserted = true → s.dev.supplyGood = true → exec (.resetPinRelease t s1 s0) s = begun .pin) ∧
    (s.dev.pinAsserted = true → s.dev.supplyGood = false → exec (.resetPinRelease t s1 s0) s =
      .next { s with dev := { d with pinAsserted := false, strap1 := s1, strap0 := s0 } }) ∧
    (s.dev.pinAsserted = false → exec (.resetPinRelease t s1 s0) s = .next { s with dev := d }) ∧
    (∀ since, s.dev.phase = .starting since → since + 1080000 ≤ d.now → s.dev.fifo = [] →
      exec (.startingEnd t) s = .next { s with
      dev := { d with
        phase := .operating
        uplink := .sending (frameBytes 0xC2 0 [s.dev.cause.code, 1]) d.now } }) ∧
    ((∀ since, s.dev.phase = .starting since → d.now < since + 1080000) → s.dev.fifo = [] →
      exec (.startingEnd t) s = .next { s with dev := d })

/-! ## Timecode, plans and contexts -/

/-- R20, R21, R22: every valid timecode counts within its base's day, two valid timecodes of one base with the same count
and identity are the same, field F2 of a frame is the successor of field F1, and the jump test holds exactly when both
counts are present and the new one is not the successor of the last, the last field of the day being followed by 0. -/
def Obligations.CountsFollowTheDay : Prop :=
  (∀ (y : System) (tc : Timecode) (i : Identity), timecodeValid y tc = true →
    let b := baseOf y tc.drop
    fieldCountOf b tc i < (match b with | .b625 => 4320000 | .b525ndf => 5184000 | .b525df => 5178816) ∧
    fieldCountOf b tc .f2 = fieldCountOf b tc .f1 + 1) ∧
  (∀ (y : System) (tc tc' : Timecode) (i i' : Identity), timecodeValid y tc = true → timecodeValid y tc' = true →
    tc.drop = tc'.drop → fieldCountOf (baseOf y tc.drop) tc i = fieldCountOf (baseOf y tc.drop) tc' i' →
    tc = tc' ∧ i = i') ∧
  (∀ last new, jumpTest last new = true ↔ ∃ l n, last = some l ∧ new = some n ∧
    ¬ (n.base = l.base ∧
      n.count = if l.count + 1 = dayFields l.base then 0 else (l.count + 1) % dayFields l.base))

/-- R33: in a plan kept in order the lookup selects the one entry whose counts cover the field's, with its index; no
entry when none covers it or the bases differ; and without a count it holds the selection. -/
def Obligations.LookupFindsTheCoveringEntry : Prop :=
  ∀ r : Reader, r.committed.Ordered →
    r.lookup none = r.selection ∧
    (∀ k : Count, r.committed.base ≠ some k.base → r.lookup (some k) = none) ∧
    (∀ (k : Count) x, r.committed.base = some k.base → (r.lookup (some k) = some x ↔
      ∃ e, r.committed.entries[x.index]? = some e ∧ e.startCount ≤ k.count ∧ k.count ≤ e.endCount ∧
        x = ⟨e.startCount, e.endCount, x.index, e.profile, e.edit⟩)) ∧
    (∀ (k : Count) (i j : Nat) (e f : PlanEntry), r.committed.entries[i]? = some e → r.committed.entries[j]? = some f →
      e.startCount ≤ k.count → k.count ≤ e.endCount → f.startCount ≤ k.count → k.count ≤ f.endCount → i = j)

/-- R37, R43, R44: a reload takes the profile at the place asked for, otherwise the channel's default, otherwise the
built-in profile, and names which; its crop is clamped to the frame of the channel's system, the height to the frame lines and
the first line to the frame lines less that height, and nothing else of the copy differs from the profile. -/
def Obligations.ReloadFallsBackAndClamps : Prop :=
  ∀ (slots : Vector (Option Profile) 31) (settings : Settings) (id : Nat), id ≤ 31 → settings.defaultProfile ≤ 31 →
    let place := fun n : Nat => if n = 0 then some profile0 else (slots[n - 1]?).join
    let x := reloadContext slots settings id
    let lines := settings.system.frameLines
    ∃ q : Profile, x.requested = id ∧
      (place id = some q ∧ x.source = id ∨
        place id = none ∧ place settings.defaultProfile = some q ∧ x.source = settings.defaultProfile ∨
        place id = none ∧ place settings.defaultProfile = none ∧ q = profile0 ∧ x.source = 0) ∧
      x.params =
        { q with
          cropHeight := min q.cropHeight lines
          cropY0 := min q.cropY0 (lines - min q.cropHeight lines) } ∧
      x.params.cropY0 + x.params.cropHeight ≤ lines

/-! ## Cadence and picture -/

/-- R69 to R72: the signature of the newest field of a ring: the two metrics over the grid, each sample read as limited,
and the flags they set under the thresholds of the field's own copy.  R75 to R81: the tracker's step on a signature, which
joins the history of ten and sets the unusable-run counter.  In SEEK the first of three tests that passes locks; in VIDEO
the two film tests do; FILM32 goes one phase on and breaks at phase 0 on a usable signature without the repeat flag,
FILM22 goes on and breaks at phase 1 on a usable signature without the pair flag; the third unusable signature in a row
breaks all but SEEK: SEEK, history cleared, counter 0; and a forced mode of the field's copy sets its own state with the
field's forced phase. -/
def Obligations.SignatureStepsTheTracker : Prop :=
  (∀ (y : System) (ring : List Slot) (n : Slot),
    let sig := fieldSignature y ring n
    let code := fun (f : Slot) (l x : Nat) => max 4 (min 1019 (f.luma l x))
    let rows := match y with
      | .s625 => 143
      | .s525 => 119
    let mean := fun f : Nat → Nat → Nat =>
      ((List.range rows).map fun i => ((List.range 180).map fun j => f (2 * i + 2) (4 * j)).sum).sum / (rows * 180)
    let prev1 := ring.dropLast.getLast?.filter fun p => !p.stale && decide (p.identity ≠ n.identity)
    let prev2 := ring.dropLast.dropLast.getLast?.filter fun p => !p.stale
    let top := decide (n.identity = match y with
      | .s625 => Identity.f1
      | .s525 => .f2)
    let comb := fun (p : Slot) (l x : Nat) =>
      let a := code p (if top then l - 1 else l) x
      let b := code p (if top then l else l + 1) x
      if min a b ≤ code n l x ∧ code n l x ≤ max a b then 0
      else min (absDiff (code n l x) a) (absDiff (code n l x) b)
    sig.seq = n.seq ∧
    (sig.repeats = true ↔
      ∃ p, prev2 = some p ∧ mean (fun l x => absDiff (code n l x) (code p l x)) < n.context.params.repeatThreshold) ∧
    (sig.pairs = true ↔ ∃ p, prev1 = some p ∧ mean (comb p) < n.context.params.combThreshold) ∧
    (sig.usable = true ↔ prev1.isSome ∧ prev2.isSome ∧ n.malformed = false)) ∧
  ∀ (t : Tracker) (n : Slot) (sig : Signature),
    let third := t.unusable = 2 ∧ sig.usable = false
    let h := t.history ++ [sig]
    let kept := h.drop (h.length - 10)
    let counter := if sig.usable then 0 else min 3 (t.unusable + 1)
    let broken : Tracker := ⟨.seek, [], 0⟩
    let film32 := fun p : Fin 5 => kept.length = 10 ∧ ∀ (i : Nat) (g : Signature), kept[i]? = some g →
      g.usable = true ∧ (g.repeats = true ↔ i + p.val = 4 ∨ i + p.val = 9)
    let film22 := fun p : Fin 2 => 8 ≤ kept.length ∧ ∀ (i : Nat) (g : Signature), i < 8 → kept.reverse[i]? = some g →
      g.usable = true ∧ g.repeats = false ∧ (g.pairs = true ↔ (i + p.val) % 2 = 1)
    let video := 6 ≤ kept.length ∧
      (∀ g ∈ kept.reverse.take 6, g.usable = true ∧ g.repeats = false) ∧
      4 ≤ ((kept.reverse.take 6).filter fun g => !g.pairs).length
    let filmLocks :=
      (∀ p, film32 p → t.step n sig = (⟨.film32 p, kept, counter⟩, .lock)) ∧
      ((∀ p, ¬ film32 p) → ∀ q, film22 q → t.step n sig = (⟨.film22 q, kept, counter⟩, .lock))
    (n.context.params.mode = .auto →
      (t.cadence = .seek → filmLocks ∧
        ((∀ p, ¬ film32 p) → (∀ q, ¬ film22 q) →
          (video → t.step n sig = (⟨.video, kept, counter⟩, .lock)) ∧
          (¬ video → (t.step n sig).1 = ⟨.seek, kept, counter⟩))) ∧
      (t.cadence = .video →
        (third → t.step n sig = (broken, .unusable)) ∧
        (¬ third → filmLocks ∧
          ((∀ p, ¬ film32 p) → (∀ q, ¬ film22 q) → (t.step n sig).1 = ⟨.video, kept, counter⟩))) ∧
      (∀ p : Fin 5, t.cadence = .film32 p →
        (third → t.step n sig = (broken, .unusable)) ∧
        (¬ third → p + 1 = 0 ∧ sig.usable = true ∧ sig.repeats = false → t.step n sig = (broken, .break_)) ∧
        (¬ third → ¬ (p + 1 = 0 ∧ sig.usable = true ∧ sig.repeats = false) →
          (t.step n sig).1 = ⟨.film32 (p + 1), kept, counter⟩)) ∧
      (∀ p : Fin 2, t.cadence = .film22 p →
        (third → t.step n sig = (broken, .unusable)) ∧
        (¬ third → p + 1 = 1 ∧ sig.usable = true ∧ sig.pairs = false → t.step n sig = (broken, .break_)) ∧
        (¬ third → ¬ (p + 1 = 1 ∧ sig.usable = true ∧ sig.pairs = false) →
          (t.step n sig).1 = ⟨.film22 (p + 1), kept, counter⟩))) ∧
    (n.context.params.mode = .forceVideo → t.step n sig = (⟨.forcedVideo, kept, counter⟩, .forced)) ∧
    (∀ p, n.context.params.mode = .force22 → n.forcedPhase = some (.of22 p) →
      t.step n sig = (⟨.forced22 p, kept, counter⟩, .forced)) ∧
    (∀ p, n.context.params.mode = .force32 → n.forcedPhase = some (.of32 p) →
      t.step n sig = (⟨.forced32 p, kept, counter⟩, .forced))

/-- R92 to R95, R97, R98, R100, R107: the frame built from a view.  Field n's own lines are copied.  A cadence that
weaves names the phase of field n and with it its partner, field n+1 or n−1; where that can be used every missing line is
the partner's, and the spatial estimate inside a window-stale rectangle.  In every other case, the rebuild after a loss
among them, a missing sample is interpolated: the spatial estimate without clean neighbours, otherwise the blend at the
weight of the motion, 16 inside a rectangle; chroma takes the weight of its luma column.  R96: the spatial estimate
averages along the direction of the smallest difference, and lies between the samples around it.  R98, R99: the blend
weight from a motion value is 0 to 16, and a blend lies between its estimates.  R109 to R118: every
sample of the raster composed from the frame.  A pass takes output index i from four taps about its source position in
eighths, clamped to the crop window, with the coefficients of R113's table and the rounding of R114; the vertical pass gives
1080 lines within 0 to 1023, the horizontal one 1440 luma samples and 720 pairs of each chroma within 4 to 1019, the chroma
from pair x0/2 with half the width; they stand in columns 240 to 1679 and pairs 120 to 839, with the border colour either
side.  A flat crop window gives its own value, limited to 4 to 1019. -/
def Obligations.FrameFollowsViewAndCadence : Prop :=
  (∀ (y : System) (v : View),
    let n := v.field
    let p := n.context.params
    let top := decide (n.identity = match y with
      | .s625 => Identity.f1
      | .s525 => .f2)
    let inside := fun (r : Rect) (x line : Nat) => r.x0 ≤ x ∧ x < r.x0 + r.w ∧ r.y0 ≤ line ∧ line < r.y0 + r.h
    let covered := fun x line : Nat => (∃ w, n.window = some w ∧ inside w.rect x line) ∨
      ∃ f w, v.next = some f ∧ f.window = some w ∧ w.remaining = 2 ∧ inside w.rect x line
    let weaves := fun k : ForcedPhase =>
      (∃ q : Fin 5, v.cadence = some (.film32 q) ∧ k = .of32 (q - 1)) ∨
      (∃ q : Fin 2, v.cadence = some (.film22 q) ∧ k = .of22 (q - 1)) ∨
      (∃ q r : Fin 5, v.cadence = some (.forced32 q) ∧ p.mode = .force32 ∧ n.forcedPhase = some k ∧ k = .of32 r) ∨
      (∃ q r : Fin 2, v.cadence = some (.forced22 q) ∧ p.mode = .force22 ∧ n.forcedPhase = some k ∧ k = .of22 r)
    let plain := v.cadence = none ∨ v.cadence = some .seek ∨ v.cadence = some .video ∨ v.cadence = some .forcedVideo ∨
      (∃ q, v.cadence = some (.forced32 q) ∧ p.mode ≠ .force32) ∨ (∃ q, v.cadence = some (.forced22 q) ∧ p.mode ≠ .force22)
    let usable := fun f : Slot => f.stale = false ∧ f.identity ≠ n.identity
    let partner := fun (k : ForcedPhase) (f : Slot) =>
      if k = .of32 1 ∨ k = .of32 3 ∨ k = .of22 0 then v.next = some f ∧ usable f ∧ n.stale = false
      else v.prev1 = some f ∧ usable f
    let around := fun p1 p2 n1 : Slot => v.prev1 = some p1 ∧ usable p1 ∧ v.prev2 = some p2 ∧ p2.stale = false ∧
      v.next = some n1
    ∀ line x j : Nat,
      let a := (if line = 0 then 1 else line - 1) / 2
      let b := (if line + 1 = y.frameLines then line - 1 else line + 1) / 2
      let spatial := spatialLuma (n.luma a) (n.luma b) x
      let spatialPair := fun code : Slot → Nat → Nat → Nat => (code n a j + code n b j + 1) / 2
      ((line % 2 = 0 ↔ top = true) → v.frameLuma y x line = n.luma (line / 2) x ∧
        ∀ code, v.frameChroma y code j line = code n (line / 2) j) ∧
      (¬ (line % 2 = 0 ↔ top = true) →
        (∀ k f, weaves k → partner k f →
          (covered x line → v.frameLuma y x line = spatial) ∧
          (¬ covered x line → v.frameLuma y x line = f.luma (line / 2) x) ∧
          ∀ code, (covered (2 * j) line → v.frameChroma y code j line = spatialPair code) ∧
            (¬ covered (2 * j) line → v.frameChroma y code j line = code f (line / 2) j)) ∧
        (plain ∨ (∃ k, weaves k ∧ ∀ f, ¬ partner k f) →
          ((∀ p1 p2 n1, ¬ around p1 p2 n1) → v.frameLuma y x line = spatial ∧
            ∀ code, v.frameChroma y code j line = spatialPair code) ∧
          ∀ p1 p2 n1, around p1 p2 n1 →
            let weight := fun x : Nat => weightOf p (max (absDiff (p1.luma (line / 2) x) (n1.luma (line / 2) x))
              (max (absDiff (n.luma a x) (p2.luma a x)) (absDiff (n.luma b x) (p2.luma b x))))
            (covered x line → v.frameLuma y x line = spatial) ∧
            (¬ covered x line → v.frameLuma y x line =
              blend ((p1.luma (line / 2) x + n1.luma (line / 2) x + 1) / 2) spatial (weight x)) ∧
            ∀ code, (covered (2 * j) line → v.frameChroma y code j line = spatialPair code) ∧
              (¬ covered (2 * j) line → v.frameChroma y code j line =
                blend ((code p1 (line / 2) j + code n1 (line / 2) j + 1) / 2) (spatialPair code) (weight (2 * j)))))) ∧
  (∀ (a b : Nat → Nat) (x : Nat), x < 720 →
    let l := x - 1
    let r := min 719 (x + 1)
    let minus := absDiff (a l) (b r)
    let plus := absDiff (a r) (b l)
    let straight := absDiff (a x) (b x)
    spatialLuma a b x =
      if straight ≤ minus ∧ straight ≤ plus then (a x + b x + 1) / 2
      else if minus ≤ plus then (a l + b r + 1) / 2
      else (a r + b l + 1) / 2) ∧
  (∀ (a b : Nat → Nat) (x low high : Nat), x < 720 → (∀ i, i < 720 → low ≤ a i ∧ a i ≤ high ∧ low ≤ b i ∧ b i ≤ high) →
    low ≤ spatialLuma a b x ∧ spatialLuma a b x ≤ high) ∧
  (∀ (p : Profile) (m : Nat), p.motionLow < p.motionHigh → weightOf p m ≤ 16 ∧
    (m ≤ p.motionLow → weightOf p m = 0) ∧ (p.motionHigh ≤ m → weightOf p m = 16) ∧
    (p.motionLow < m → m < p.motionHigh →
      weightOf p m = (m - p.motionLow) * 16 / (p.motionHigh - p.motionLow) ∧ weightOf p m < 16)) ∧
  (∀ t s k, k ≤ 16 → blend t s k = (t * (16 - k) + s * k + 8) / 16 ∧ min t s ≤ blend t s k ∧ blend t s k ≤ max t s) ∧
  (∀ t s, blend t s 0 = t ∧ blend t s 16 = s) ∧
  (∀ (f : Machine.Filter) (phase v : Nat), phase < 8 → filterValue (coefficients f phase) v v v v = v) ∧
  (∀ (y : System) (v : View) (row : Fin 1080),
    let p := v.field.context.params
    let cubic : List (Int × Int × Int × Int) := [(0, 64, 0, 0), (-3, 61, 6, 0), (-4, 55, 15, -2), (-5, 47, 25, -3),
      (-4, 36, 36, -4), (-3, 25, 47, -5), (-2, 15, 55, -4), (0, 6, 61, -3)]
    let pass := fun (inSize outSize : Nat) (low high : Int) (sample : Nat → Nat) (i : Nat) =>
      let src8 : Int := ((2 * i + 1) * inSize * 8 - 8 * outSize + outSize) / (2 * outSize)
      let phase := src8 % 8
      let c := match p.filter with
        | .cubic => cubic.getD phase.toNat (0, 0, 0, 0)
        | .linear => (0, 64 - 8 * phase, 8 * phase, 0)
      let tap := fun k : Int => (sample (max 0 (min ((inSize : Int) - 1) (src8 / 8 + k))).toNat : Int)
      (max low (min high ((c.1 * tap (-1) + c.2.1 * tap 0 + c.2.2.1 * tap 1 + c.2.2.2 * tap 2 + 32) / 64))).toNat
    let line := fun sample : Nat → Nat => pass p.cropHeight 1080 0 1023 (fun t => sample (p.cropY0 + t)) row.val
    let luma := pass p.cropWidth 1440 4 1019 fun t => line fun l => v.frameLuma y (p.cropX0 + t) l
    let chroma := fun code : Slot → Nat → Nat → Nat =>
      pass (p.cropWidth / 2) 720 4 1019 fun t => line fun l => v.frameChroma y code (p.cropX0 / 2 + t) l
    let out := (compose y v).raster[row]
    (∀ col : Fin 1920, out.y[col] =
      if 240 ≤ col.val ∧ col.val < 1680 then BitVec.ofNat 10 (luma (col.val - 240)) else p.border.y) ∧
    ∀ pair : Fin 960,
      (out.cb[pair] =
        if 120 ≤ pair.val ∧ pair.val < 840 then BitVec.ofNat 10 (chroma Slot.cb (pair.val - 120)) else p.border.cb) ∧
      out.cr[pair] =
        if 120 ≤ pair.val ∧ pair.val < 840 then BitVec.ofNat 10 (chroma Slot.cr (pair.val - 120)) else p.border.cr) ∧
  ∀ (y : System) (v : View) (row : Fin 1080) (col : Fin 1920),
    let p := v.field.context.params
    let out := (compose y v).raster[row].y[col]
    (col.val < 240 ∨ 1680 ≤ col.val → out = p.border.y) ∧
    (240 ≤ col.val → col.val < 1680 → 0 < p.cropWidth → 0 < p.cropHeight →
      ∀ code, (∀ x line, p.cropX0 ≤ x → x < p.cropX0 + p.cropWidth → p.cropY0 ≤ line → line < p.cropY0 + p.cropHeight →
          v.frameLuma y x line = code) → out = BitVec.ofNat 10 (max 4 (min 1019 code)))
end

