-- ==== Sys2Proof/Laws/State.lean ====
section
/-! SUPPORT. The small lemmas of the updates of the device: what each changes and what it leaves, and the shell, the
part of the device that no work on a channel, a notice, a reply or an operation touches. -/

namespace Sys2Proof.Machine

/-! ## One channel replaced or changed -/

@[simp] theorem Device.chan_setChan_self (d : Device) (c : Chan) (ch : Channel) : (d.setChan c ch).chan c = ch := by
  simp [Device.chan, Device.setChan]

theorem Device.chan_setChan_ne (d : Device) {c c' : Chan} (ch : Channel) (h : c' ≠ c) :
    (d.setChan c ch).chan c' = d.chan c' := by
  have : c.val ≠ c'.val := fun e => h (Fin.ext e.symm)
  simp [Device.chan, Device.setChan, this]

@[simp] theorem Device.chan_modChan_self (d : Device) (c : Chan) (f : Channel → Channel) :
    (d.modChan c f).chan c = f (d.chan c) := by
  simp [Device.modChan]

theorem Device.chan_modChan_ne (d : Device) {c c' : Chan} (f : Channel → Channel) (h : c' ≠ c) :
    (d.modChan c f).chan c' = d.chan c' := Device.chan_setChan_ne d _ h

@[simp] theorem Device.setChan_ops (d : Device) (c : Chan) (ch : Channel) : (d.setChan c ch).ops = d.ops := rfl
@[simp] theorem Device.setChan_replies (d : Device) (c : Chan) (ch : Channel) :
    (d.setChan c ch).replies = d.replies := rfl
@[simp] theorem Device.setChan_uplink (d : Device) (c : Chan) (ch : Channel) : (d.setChan c ch).uplink = d.uplink := rfl
@[simp] theorem Device.setChan_notices (d : Device) (c : Chan) (ch : Channel) :
    (d.setChan c ch).notices = d.notices := rfl
@[simp] theorem Device.setChan_dropLog (d : Device) (c : Chan) (ch : Channel) :
    (d.setChan c ch).dropLog = d.dropLog := rfl
@[simp] theorem Device.setChan_overflow (d : Device) (c : Chan) (ch : Channel) :
    (d.setChan c ch).overflow = d.overflow := rfl
@[simp] theorem Device.setChan_fifo (d : Device) (c : Chan) (ch : Channel) : (d.setChan c ch).fifo = d.fifo := rfl
@[simp] theorem Device.setChan_phase (d : Device) (c : Chan) (ch : Channel) : (d.setChan c ch).phase = d.phase := rfl
@[simp] theorem Device.setChan_profiles (d : Device) (c : Chan) (ch : Channel) :
    (d.setChan c ch).profiles = d.profiles := rfl
@[simp] theorem Device.setChan_cues (d : Device) (c : Chan) (ch : Channel) : (d.setChan c ch).cues = d.cues := rfl
@[simp] theorem Device.setChan_now (d : Device) (c : Chan) (ch : Channel) : (d.setChan c ch).now = d.now := rfl
@[simp] theorem Device.setChan_chans (d : Device) (c : Chan) (ch : Channel) :
    (d.setChan c ch).chans = d.chans.set c ch := rfl

@[simp] theorem Device.modChan_ops (d : Device) (c : Chan) (f : Channel → Channel) : (d.modChan c f).ops = d.ops := rfl
@[simp] theorem Device.modChan_replies (d : Device) (c : Chan) (f : Channel → Channel) :
    (d.modChan c f).replies = d.replies := rfl
@[simp] theorem Device.modChan_uplink (d : Device) (c : Chan) (f : Channel → Channel) :
    (d.modChan c f).uplink = d.uplink := rfl
@[simp] theorem Device.modChan_notices (d : Device) (c : Chan) (f : Channel → Channel) :
    (d.modChan c f).notices = d.notices := rfl
@[simp] theorem Device.modChan_dropLog (d : Device) (c : Chan) (f : Channel → Channel) :
    (d.modChan c f).dropLog = d.dropLog := rfl
@[simp] theorem Device.modChan_overflow (d : Device) (c : Chan) (f : Channel → Channel) :
    (d.modChan c f).overflow = d.overflow := rfl
@[simp] theorem Device.modChan_fifo (d : Device) (c : Chan) (f : Channel → Channel) :
    (d.modChan c f).fifo = d.fifo := rfl
@[simp] theorem Device.modChan_phase (d : Device) (c : Chan) (f : Channel → Channel) :
    (d.modChan c f).phase = d.phase := rfl
@[simp] theorem Device.modChan_profiles (d : Device) (c : Chan) (f : Channel → Channel) :
    (d.modChan c f).profiles = d.profiles := rfl
@[simp] theorem Device.modChan_cues (d : Device) (c : Chan) (f : Channel → Channel) :
    (d.modChan c f).cues = d.cues := rfl
@[simp] theorem Device.modChan_now (d : Device) (c : Chan) (f : Channel → Channel) : (d.modChan c f).now = d.now := rfl

theorem Device.chan_congr {d d' : Device} (h : d.chans = d'.chans) (c : Chan) : d.chan c = d'.chan c := by
  simp [Device.chan, h]

/-! ## The clock at an event -/

@[simp] theorem Device.arrive_now (t : Ticks) (d : Device) : (d.arrive t).now = max d.now t := rfl
@[simp] theorem Device.arrive_phase (t : Ticks) (d : Device) : (d.arrive t).phase = d.phase := rfl
@[simp] theorem Device.arrive_chan (t : Ticks) (d : Device) (c : Chan) : (d.arrive t).chan c = d.chan c := rfl
@[simp] theorem Device.arrive_fifo (t : Ticks) (d : Device) : (d.arrive t).fifo = d.fifo := rfl
@[simp] theorem Device.arrive_ops (t : Ticks) (d : Device) : (d.arrive t).ops = d.ops := rfl
@[simp] theorem Device.arrive_replies (t : Ticks) (d : Device) : (d.arrive t).replies = d.replies := rfl
@[simp] theorem Device.arrive_uplink (t : Ticks) (d : Device) : (d.arrive t).uplink = d.uplink := rfl
@[simp] theorem Device.arrive_notices (t : Ticks) (d : Device) : (d.arrive t).notices = d.notices := rfl
@[simp] theorem Device.arrive_dropLog (t : Ticks) (d : Device) : (d.arrive t).dropLog = d.dropLog := rfl

/-- A clock reading that is not later changes nothing. -/
theorem Device.arrive_eq_self {t : Ticks} {d : Device} (h : t ≤ d.now) : d.arrive t = d := by
  cases d
  simp_all [Device.arrive]

/-! ## The shell -/

/-- What no work on a channel, a notice, a reply, an operation or the dropout log touches. -/
structure Shell where
  now : Ticks
  phase : Phase
  supplyGood : Bool
  pinAsserted : Bool
  strap1 : Bool
  strap0 : Bool
  lineRate : Nat
  cause : ResetCause
  profiles : Vector (Option Profile) 31
  watermark : Nat
  receiver : Receiver
  gapSince : Ticks
  noiseRun : Bool
  fifo : List Command
  cues : Vector CueRecord 8
  cueOutside : Vector Bool 8
  houseFamily : HouseFamily
  lastHouse : Option Ticks

/-- The shell of a device. -/
def Device.shell (d : Device) : Shell where
  now := d.now
  phase := d.phase
  supplyGood := d.supplyGood
  pinAsserted := d.pinAsserted
  strap1 := d.strap1
  strap0 := d.strap0
  lineRate := d.lineRate
  cause := d.cause
  profiles := d.profiles
  watermark := d.watermark
  receiver := d.receiver
  gapSince := d.gapSince
  noiseRun := d.noiseRun
  fifo := d.fifo
  cues := d.cues
  cueOutside := d.cueOutside
  houseFamily := d.houseFamily
  lastHouse := d.lastHouse

@[simp] theorem Device.setChan_shell (d : Device) (c : Chan) (ch : Channel) : (d.setChan c ch).shell = d.shell := rfl
@[simp] theorem Device.modChan_shell (d : Device) (c : Chan) (f : Channel → Channel) :
    (d.modChan c f).shell = d.shell := rfl

theorem Device.now_of_shell {d d' : Device} (h : d'.shell = d.shell) : d'.now = d.now := congrArg Shell.now h
theorem Device.phase_of_shell {d d' : Device} (h : d'.shell = d.shell) : d'.phase = d.phase := congrArg Shell.phase h
theorem Device.fifo_of_shell {d d' : Device} (h : d'.shell = d.shell) : d'.fifo = d.fifo := congrArg Shell.fifo h
theorem Device.profiles_of_shell {d d' : Device} (h : d'.shell = d.shell) : d'.profiles = d.profiles :=
  congrArg Shell.profiles h
theorem Device.watermark_of_shell {d d' : Device} (h : d'.shell = d.shell) : d'.watermark = d.watermark :=
  congrArg Shell.watermark h
theorem Device.cues_of_shell {d d' : Device} (h : d'.shell = d.shell) : d'.cues = d.cues := congrArg Shell.cues h
theorem Device.receiver_of_shell {d d' : Device} (h : d'.shell = d.shell) : d'.receiver = d.receiver :=
  congrArg Shell.receiver h
theorem Device.houseFamily_of_shell {d d' : Device} (h : d'.shell = d.shell) : d'.houseFamily = d.houseFamily :=
  congrArg Shell.houseFamily h

end Sys2Proof.Machine
end

