-- ==== Sys2Proof/Laws/Ops.lean ====
section
/-! SUPPORT. What each shared operation of Machine/Ops.lean can do, said once, and the relation `Works`: what all work on
one channel has in common. -/

namespace Sys2Proof.Machine

/-! ## The uplink's choice -/

/-- All that a choice can do: nothing, begin the oldest reply, or begin the notice of the source the arbiter names. -/
theorem Device.choose_cases (d : Device) :
    d.choose = d ∨
    (∃ r rest, d.phase = .operating ∧ d.uplink = .idle ∧ d.replies = r :: rest ∧
      d.choose = { d with uplink := .sending r.frame d.now, replies := rest }) ∨
    (∃ i, d.phase = .operating ∧ d.uplink = .idle ∧ d.replies = [] ∧ namedSource d.notices = some i ∧
      d.choose = { d with
        uplink := .sending (noticeFrameOf d.notices i) d.now
        notices := d.notices.set i d.notices[i].lower }) := by
  unfold Device.choose
  split
  · rename_i h1 h2
    split
    · rename_i r rest h3
      exact .inr (.inl ⟨r, rest, h1, h2, h3, rfl⟩)
    · rename_i h3
      split
      · rename_i i h4
        exact .inr (.inr ⟨i, h1, h2, h3, h4, rfl⟩)
      · exact .inl rfl
  · exact .inl rfl

/-- A busy uplink makes no choice. -/
theorem Device.choose_of_sending {d : Device} {frame : List Byte} {since : Ticks}
    (h : d.uplink = .sending frame since) : d.choose = d := by
  obtain e | ⟨_, _, _, hi, _⟩ | ⟨_, _, hi, _⟩ := d.choose_cases
  · exact e
  · simp [h] at hi
  · simp [h] at hi

@[simp] theorem Device.choose_shell (d : Device) : d.choose.shell = d.shell := by
  obtain e | ⟨_, _, _, _, _, e⟩ | ⟨_, _, _, _, _, e⟩ := d.choose_cases <;> rw [e] <;> rfl
@[simp] theorem Device.choose_chans (d : Device) : d.choose.chans = d.chans := by
  obtain e | ⟨_, _, _, _, _, e⟩ | ⟨_, _, _, _, _, e⟩ := d.choose_cases <;> rw [e]
@[simp] theorem Device.choose_ops (d : Device) : d.choose.ops = d.ops := by
  obtain e | ⟨_, _, _, _, _, e⟩ | ⟨_, _, _, _, _, e⟩ := d.choose_cases <;> rw [e]
@[simp] theorem Device.choose_dropLog (d : Device) : d.choose.dropLog = d.dropLog := by
  obtain e | ⟨_, _, _, _, _, e⟩ | ⟨_, _, _, _, _, e⟩ := d.choose_cases <;> rw [e]
@[simp] theorem Device.choose_overflow (d : Device) : d.choose.overflow = d.overflow := by
  obtain e | ⟨_, _, _, _, _, e⟩ | ⟨_, _, _, _, _, e⟩ := d.choose_cases <;> rw [e]
@[simp] theorem Device.choose_chan (d : Device) (c : Chan) : d.choose.chan c = d.chan c :=
  Device.chan_congr d.choose_chans c

theorem Device.choose_replies_le (d : Device) : d.choose.replies.length ≤ d.replies.length := by
  obtain e | ⟨_, _, _, _, h, e⟩ | ⟨_, _, _, _, _, e⟩ := d.choose_cases <;> rw [e]
  simp [h]

/-! ## Raising and lowering a source -/

@[simp] theorem Device.raise_shell (src : Source) (detail : Detail) (d : Device) :
    (d.raise src detail).shell = d.shell := by
  rw [Device.raise, Device.choose_shell]; rfl
@[simp] theorem Device.raise_chans (src : Source) (detail : Detail) (d : Device) :
    (d.raise src detail).chans = d.chans := by
  rw [Device.raise, Device.choose_chans]
@[simp] theorem Device.raise_chan (src : Source) (detail : Detail) (d : Device) (c : Chan) :
    (d.raise src detail).chan c = d.chan c := Device.chan_congr (d.raise_chans src detail) c
@[simp] theorem Device.raise_ops (src : Source) (detail : Detail) (d : Device) : (d.raise src detail).ops = d.ops := by
  rw [Device.raise, Device.choose_ops]
@[simp] theorem Device.raise_dropLog (src : Source) (detail : Detail) (d : Device) :
    (d.raise src detail).dropLog = d.dropLog := by
  rw [Device.raise, Device.choose_dropLog]
@[simp] theorem Device.raise_overflow (src : Source) (detail : Detail) (d : Device) :
    (d.raise src detail).overflow = d.overflow := by
  rw [Device.raise, Device.choose_overflow]

theorem Device.raise_replies_le (src : Source) (detail : Detail) (d : Device) :
    (d.raise src detail).replies.length ≤ d.replies.length :=
  Device.choose_replies_le _

@[simp] theorem Device.lower_shell (src : Source) (d : Device) : (d.lower src).shell = d.shell := rfl
@[simp] theorem Device.lower_chan (src : Source) (d : Device) (c : Chan) : (d.lower src).chan c = d.chan c := rfl

/-! ## A reply enters the queue -/

/-- All that entering a reply does: an IDLE uplink past its hello message begins the oldest reply, and otherwise the
reply waits. -/
theorem Device.enterReply_cases (r : Reply) (d : Device) :
    (d.enterReply r = { d with replies := d.replies ++ [r] } ∧ ¬ (d.phase = .operating ∧ d.uplink = .idle)) ∨
    (d.phase = .operating ∧ d.uplink = .idle ∧ ∃ r' rest, d.replies ++ [r] = r' :: rest ∧
      d.enterReply r = { d with uplink := .sending r'.frame d.now, replies := rest }) := by
  unfold Device.enterReply Device.choose
  by_cases h : d.phase = .operating ∧ d.uplink = .idle
  · right
    refine ⟨h.1, h.2, ?_⟩
    cases hr : d.replies with
    | nil => exact ⟨r, [], by simp, by simp [h]⟩
    | cons r' rest => exact ⟨r', rest ++ [r], by simp, by simp [h]⟩
  · left
    refine ⟨?_, h⟩
    cases hp : d.phase <;> cases hu : d.uplink <;> simp_all

@[simp] theorem Device.enterReply_shell (r : Reply) (d : Device) : (d.enterReply r).shell = d.shell := by
  rw [Device.enterReply, Device.choose_shell]; rfl
@[simp] theorem Device.enterReply_chans (r : Reply) (d : Device) : (d.enterReply r).chans = d.chans := by
  rw [Device.enterReply, Device.choose_chans]
@[simp] theorem Device.enterReply_chan (r : Reply) (d : Device) (c : Chan) : (d.enterReply r).chan c = d.chan c :=
  Device.chan_congr (d.enterReply_chans r) c
@[simp] theorem Device.enterReply_ops (r : Reply) (d : Device) : (d.enterReply r).ops = d.ops := by
  rw [Device.enterReply, Device.choose_ops]
@[simp] theorem Device.enterReply_dropLog (r : Reply) (d : Device) : (d.enterReply r).dropLog = d.dropLog := by
  rw [Device.enterReply, Device.choose_dropLog]
@[simp] theorem Device.enterReply_overflow (r : Reply) (d : Device) : (d.enterReply r).overflow = d.overflow := by
  rw [Device.enterReply, Device.choose_overflow]
@[simp] theorem Device.enterReply_notices (r : Reply) (d : Device) : (d.enterReply r).notices = d.notices := by
  obtain ⟨e, _⟩ | ⟨_, _, _, _, _, e⟩ := d.enterReply_cases r <;> rw [e]

theorem Device.enterReply_replies_le (r : Reply) (d : Device) :
    (d.enterReply r).replies.length ≤ d.replies.length + 1 := by
  have := Device.choose_replies_le ({ d with replies := d.replies ++ [r] } : Device)
  simpa [Device.enterReply] using this

@[simp] theorem Device.answer_shell (tag kind : Byte) (st : Status) (rs : List Byte) (d : Device) :
    (d.answer tag kind st rs).shell = d.shell := Device.enterReply_shell _ _
@[simp] theorem Device.answer_chans (tag kind : Byte) (st : Status) (rs : List Byte) (d : Device) :
    (d.answer tag kind st rs).chans = d.chans := Device.enterReply_chans _ _
@[simp] theorem Device.answer_chan (tag kind : Byte) (st : Status) (rs : List Byte) (d : Device) (c : Chan) :
    (d.answer tag kind st rs).chan c = d.chan c := Device.enterReply_chan _ _ c
@[simp] theorem Device.answer_ops (tag kind : Byte) (st : Status) (rs : List Byte) (d : Device) :
    (d.answer tag kind st rs).ops = d.ops := Device.enterReply_ops _ _
@[simp] theorem Device.answer_dropLog (tag kind : Byte) (st : Status) (rs : List Byte) (d : Device) :
    (d.answer tag kind st rs).dropLog = d.dropLog := Device.enterReply_dropLog _ _
@[simp] theorem Device.answer_overflow (tag kind : Byte) (st : Status) (rs : List Byte) (d : Device) :
    (d.answer tag kind st rs).overflow = d.overflow := Device.enterReply_overflow _ _
@[simp] theorem Device.answer_notices (tag kind : Byte) (st : Status) (rs : List Byte) (d : Device) :
    (d.answer tag kind st rs).notices = d.notices := Device.enterReply_notices _ _

/-! ## The operations table -/

/-- All that a completion does: nothing, or the operation leaves the table and its reply enters the queue. -/
theorem Device.completeOp_cases (tag : Byte) (d : Device) :
    d.completeOp tag = d ∨
    ∃ o ∈ d.ops, o.tag = tag ∧ o.complete ∧
      d.completeOp tag = ({ d with ops := d.ops.filter fun o => decide (o.tag ≠ tag) } : Device).enterReply o.reply := by
  unfold Device.completeOp
  split
  · rename_i o h
    by_cases hc : o.complete
    · right
      refine ⟨o, List.mem_of_find?_eq_some h, ?_, hc, by simp [hc]⟩
      simpa using List.find?_some h
    · left; simp [hc]
  · exact .inl rfl

@[simp] theorem Device.completeOp_shell (tag : Byte) (d : Device) : (d.completeOp tag).shell = d.shell := by
  obtain e | ⟨_, _, _, _, e⟩ := d.completeOp_cases tag <;> rw [e]
  rw [Device.enterReply_shell]; rfl
@[simp] theorem Device.completeOp_chans (tag : Byte) (d : Device) : (d.completeOp tag).chans = d.chans := by
  obtain e | ⟨_, _, _, _, e⟩ := d.completeOp_cases tag <;> rw [e]
  rw [Device.enterReply_chans]
@[simp] theorem Device.completeOp_dropLog (tag : Byte) (d : Device) : (d.completeOp tag).dropLog = d.dropLog := by
  obtain e | ⟨_, _, _, _, e⟩ := d.completeOp_cases tag <;> rw [e]
  rw [Device.enterReply_dropLog]
@[simp] theorem Device.completeOp_overflow (tag : Byte) (d : Device) : (d.completeOp tag).overflow = d.overflow := by
  obtain e | ⟨_, _, _, _, e⟩ := d.completeOp_cases tag <;> rw [e]
  rw [Device.enterReply_overflow]
@[simp] theorem Device.completeOp_notices (tag : Byte) (d : Device) : (d.completeOp tag).notices = d.notices := by
  obtain e | ⟨_, _, _, _, e⟩ := d.completeOp_cases tag <;> rw [e]
  rw [Device.enterReply_notices]

theorem Device.completeOp_ops_sub (tag : Byte) (d : Device) : (d.completeOp tag).ops.Sublist d.ops := by
  obtain e | ⟨_, _, _, _, e⟩ := d.completeOp_cases tag <;> rw [e]
  rw [Device.enterReply_ops]
  exact List.filter_sublist

/-- A completion moves one place from the operations to the replies (R162). -/
theorem Device.completeOp_flow (tag : Byte) (d : Device) :
    (d.completeOp tag).ops.length + (d.completeOp tag).replies.length ≤ d.ops.length + d.replies.length := by
  obtain e | ⟨o, ho, ht, _, e⟩ := d.completeOp_cases tag <;> rw [e]
  have h1 := Device.enterReply_replies_le o.reply
    ({ d with ops := d.ops.filter fun o => decide (o.tag ≠ tag) } : Device)
  have h2 : (d.ops.filter fun o => decide (o.tag ≠ tag)).length < d.ops.length := by
    apply List.length_filter_lt_length_iff_exists.2
    exact ⟨o, ho, by simp [ht]⟩
  rw [Device.enterReply_ops]
  simp only at h1 ⊢
  omega

@[simp] theorem Device.settleOp_shell (tag : Byte) (c : Chan) (flag : DoneFlag) (p : Option FlushDone) (r : OpResult)
    (d : Device) : (d.settleOp tag c flag p r).shell = d.shell := by
  rw [Device.settleOp, Device.completeOp_shell]; rfl
@[simp] theorem Device.settleOp_chans (tag : Byte) (c : Chan) (flag : DoneFlag) (p : Option FlushDone) (r : OpResult)
    (d : Device) : (d.settleOp tag c flag p r).chans = d.chans := by
  rw [Device.settleOp, Device.completeOp_chans]
@[simp] theorem Device.settleOp_chan (tag : Byte) (c : Chan) (flag : DoneFlag) (p : Option FlushDone) (r : OpResult)
    (d : Device) (c' : Chan) : (d.settleOp tag c flag p r).chan c' = d.chan c' :=
  Device.chan_congr (d.settleOp_chans tag c flag p r) c'
@[simp] theorem Device.settleOp_dropLog (tag : Byte) (c : Chan) (flag : DoneFlag) (p : Option FlushDone) (r : OpResult)
    (d : Device) : (d.settleOp tag c flag p r).dropLog = d.dropLog := by
  rw [Device.settleOp, Device.completeOp_dropLog]
@[simp] theorem Device.settleOp_overflow (tag : Byte) (c : Chan) (flag : DoneFlag) (p : Option FlushDone) (r : OpResult)
    (d : Device) : (d.settleOp tag c flag p r).overflow = d.overflow := by
  rw [Device.settleOp, Device.completeOp_overflow]
@[simp] theorem Device.settleOp_notices (tag : Byte) (c : Chan) (flag : DoneFlag) (p : Option FlushDone) (r : OpResult)
    (d : Device) : (d.settleOp tag c flag p r).notices = d.notices := by
  rw [Device.settleOp, Device.completeOp_notices]

theorem Device.settleOp_ops_le (tag : Byte) (c : Chan) (flag : DoneFlag) (p : Option FlushDone) (r : OpResult)
    (d : Device) : (d.settleOp tag c flag p r).ops.length ≤ d.ops.length := by
  have := (Device.completeOp_ops_sub tag
    ({ d with ops := d.ops.map fun o => if o.tag = tag then o.settle c flag p r else o } : Device)).length_le
  simpa [Device.settleOp] using this

theorem Device.settleOp_flow (tag : Byte) (c : Chan) (flag : DoneFlag) (p : Option FlushDone) (r : OpResult)
    (d : Device) : (d.settleOp tag c flag p r).ops.length + (d.settleOp tag c flag p r).replies.length ≤
      d.ops.length + d.replies.length := by
  have := Device.completeOp_flow tag
    ({ d with ops := d.ops.map fun o => if o.tag = tag then o.settle c flag p r else o } : Device)
  simpa [Device.settleOp] using this

@[simp] theorem Device.takeSlot_shell (tag : Byte) (k : OpKind) (ts : List Chan) (d : Device) :
    (d.takeSlot tag k ts).shell = d.shell := rfl
@[simp] theorem Device.takeSlot_chan (tag : Byte) (k : OpKind) (ts : List Chan) (d : Device) (c : Chan) :
    (d.takeSlot tag k ts).chan c = d.chan c := rfl
@[simp] theorem Device.takeSlot_replies (tag : Byte) (k : OpKind) (ts : List Chan) (d : Device) :
    (d.takeSlot tag k ts).replies = d.replies := rfl
@[simp] theorem Device.takeSlot_ops_length (tag : Byte) (k : OpKind) (ts : List Chan) (d : Device) :
    (d.takeSlot tag k ts).ops.length = d.ops.length + 1 := by
  simp [Device.takeSlot]

/-! ## The dropout log -/

@[simp] theorem Device.logRecord_shell (d : Device) (r : DropRecord) : (d.logRecord r).shell = d.shell := by
  unfold Device.logRecord
  split
  · dsimp only
    split
    · rw [Device.raise_shell]; rfl
    · rfl
  · dsimp only
    split
    · rfl
    · rw [Device.raise_shell]; rfl
@[simp] theorem Device.logRecord_chans (d : Device) (r : DropRecord) : (d.logRecord r).chans = d.chans := by
  unfold Device.logRecord
  split <;> dsimp only <;> split <;> simp
@[simp] theorem Device.logRecord_chan (d : Device) (r : DropRecord) (c : Chan) : (d.logRecord r).chan c = d.chan c :=
  Device.chan_congr (d.logRecord_chans r) c
@[simp] theorem Device.logRecord_ops (d : Device) (r : DropRecord) : (d.logRecord r).ops = d.ops := by
  unfold Device.logRecord
  split <;> dsimp only <;> split <;> simp

/-- A record is appended while the log has a place, and otherwise discarded with the overflow flag set (R62). -/
theorem Device.logRecord_log (d : Device) (r : DropRecord) :
    ((d.logRecord r).dropLog, (d.logRecord r).overflow) =
      if d.dropLog.length < Config.logDepth then (d.dropLog ++ [r], d.overflow) else (d.dropLog, true) := by
  unfold Device.logRecord
  split <;> dsimp only <;> split <;> simp

theorem Device.logRecord_dropLog_le (d : Device) (r : DropRecord) (h : d.dropLog.length ≤ Config.logDepth) :
    (d.logRecord r).dropLog.length ≤ Config.logDepth := by
  have := congrArg Prod.fst (d.logRecord_log r)
  simp only at this
  rw [this]
  split
  · simpa using by omega
  · exact h

theorem Device.logRecord_replies_le (d : Device) (r : DropRecord) :
    (d.logRecord r).replies.length ≤ d.replies.length := by
  unfold Device.logRecord
  split
  · dsimp only
    split
    · exact Device.raise_replies_le _ _ _
    · exact le_refl _
  · dsimp only
    split
    · exact le_refl _
    · exact Device.raise_replies_le _ _ _

/-! ## What all work on one channel has in common -/

/-- `d'` follows from `d` by work on channel c: the shell and the other channels are as they were, no operation is
added, the replies with the operations are no more than before (R162), and the log stays within its 256 places. -/
structure Works (c : Chan) (d d' : Device) : Prop where
  shell : d'.shell = d.shell
  others : ∀ c', c' ≠ c → d'.chan c' = d.chan c'
  ops : d'.ops.length ≤ d.ops.length
  flow : d'.ops.length + d'.replies.length ≤ d.ops.length + d.replies.length
  log : d.dropLog.length ≤ Config.logDepth → d'.dropLog.length ≤ Config.logDepth

namespace Works

variable {c : Chan} {d d' d'' : Device}

theorem refl (c : Chan) (d : Device) : Works c d d := ⟨rfl, fun _ _ => rfl, le_refl _, le_refl _, id⟩

theorem trans (h : Works c d d') (h' : Works c d' d'') : Works c d d'' :=
  ⟨h'.shell.trans h.shell, fun c' hc => (h'.others c' hc).trans (h.others c' hc), h'.ops.trans h.ops,
    h'.flow.trans h.flow, fun hl => h'.log (h.log hl)⟩

theorem setChan (d : Device) (c : Chan) (ch : Channel) : Works c d (d.setChan c ch) :=
  ⟨rfl, fun _ hc => Device.chan_setChan_ne d ch hc, le_refl _, le_refl _, id⟩

theorem modChan (d : Device) (c : Chan) (f : Channel → Channel) : Works c d (d.modChan c f) := setChan d c _

theorem raise (c : Chan) (src : Source) (detail : Detail) (d : Device) : Works c d (d.raise src detail) :=
  ⟨d.raise_shell src detail, fun c' _ => d.raise_chan src detail c', by simp,
    by simpa using d.raise_replies_le src detail, by simp⟩

theorem lower (c : Chan) (src : Source) (d : Device) : Works c d (d.lower src) :=
  ⟨rfl, fun _ _ => rfl, le_refl _, le_refl _, id⟩

theorem settleOp (c : Chan) (tag : Byte) (c' : Chan) (flag : DoneFlag) (p : Option FlushDone) (r : OpResult)
    (d : Device) : Works c d (d.settleOp tag c' flag p r) :=
  ⟨d.settleOp_shell tag c' flag p r, fun c'' _ => d.settleOp_chan tag c' flag p r c'', d.settleOp_ops_le tag c' flag p r,
    d.settleOp_flow tag c' flag p r, by simp⟩

theorem logRecord (c : Chan) (d : Device) (r : DropRecord) : Works c d (d.logRecord r) :=
  ⟨d.logRecord_shell r, fun c' _ => d.logRecord_chan r c', by simp, by simpa using d.logRecord_replies_le r,
    d.logRecord_dropLog_le r⟩

end Works

end Sys2Proof.Machine
end

