-- ==== Sys2Proof/Laws/ChannelWork.lean ====
section
/-! SUPPORT. Every function that works on one channel does `Works`: the shell and the other channels stay as they were, and
the operations, the replies and the dropout log keep their bounds.  One lemma for each function. -/

namespace Sys2Proof.Machine

/-! ## Intake of lines -/

theorem works_logRecords (c : Chan) (rs : List DropRecord) (d : Device) : Works c d (d.logRecords rs) := by
  induction rs generalizing d with
  | nil => exact .refl c d
  | cons r rs ih => exact (Works.logRecord c d r).trans (ih _)

theorem works_closeField (c : Chan) (d : Device) : Works c d (d.closeField c) := by
  unfold Device.closeField
  dsimp only
  split
  · exact (Works.setChan d c _).trans (works_logRecords c _ _)
  · exact .refl c d

theorem works_intakeLine (c : Chan) (line : Line) (d : Device) : Works c d (d.intakeLine c line) := by
  unfold Device.intakeLine
  dsimp only
  split
  · split
    · exact .setChan d c _
    · refine Works.trans ?_ (works_logRecords c _ _)
      split
      · exact (Works.setChan d c _).trans (.raise c _ _ _)
      · exact .setChan d c _
  · exact .refl c d

theorem works_lineArrives (c : Chan) (line : Line) (d : Device) : Works c d (d.lineArrives c line) := by
  unfold Device.lineArrives
  split
  · exact works_intakeLine c line d
  · exact .refl c d

/-! ## The tracker, the context and the operations pending -/

theorem works_setTracker (c : Chan) (t : Tracker) (r : CadenceReason) (d : Device) :
    Works c d (d.setTracker c t r) := by
  unfold Device.setTracker
  dsimp only
  split
  · exact .modChan d c _
  · exact (Works.modChan d c _).trans (.raise c _ _ _)

theorem works_tellMode (c : Chan) (b a : Option Context) (p : Option ForcedPhase) (d : Device) :
    Works c d (d.tellMode c b a p) := by
  unfold Device.tellMode
  split
  · split
    · exact .refl c d
    · exact works_setTracker c _ _ d
  · exact .refl c d

theorem works_swapPlan (c : Chan) (tag : Byte) (d : Device) : Works c d (d.swapPlan c tag) :=
  (Works.modChan d c _).trans (.settleOp c _ _ _ _ _ _)

theorem works_refreshNow (c : Chan) (tag : Byte) (d : Device) : Works c d (d.refreshNow c tag) :=
  ((Works.modChan d c _).trans (works_tellMode c _ _ _ _)).trans (.settleOp c _ _ _ _ _ _)

theorem works_flushNow (c : Chan) (asked : FlushScope) (tag : Byte) (d : Device) :
    Works c d (d.flushNow c asked tag) := by
  unfold Device.flushNow
  split
  · exact (Works.modChan d c _).trans (.settleOp c _ _ _ _ _ _)
  · exact ((Works.modChan d c _).trans (works_setTracker c _ _ _)).trans (.settleOp c _ _ _ _ _ _)

theorem works_settleCommit (c : Chan) (d : Device) : Works c d (d.settleCommit c) := by
  unfold Device.settleCommit
  split
  · exact works_swapPlan c _ d
  · exact .refl c d

theorem works_settleRefresh (c : Chan) (d : Device) : Works c d (d.settleRefresh c) := by
  unfold Device.settleRefresh
  split
  · exact works_refreshNow c _ d
  · exact .refl c d

theorem works_settleFlush (c : Chan) (d : Device) : Works c d (d.settleFlush c) := by
  unfold Device.settleFlush
  split
  · exact works_flushNow c _ _ d
  · exact .refl c d

theorem works_leaveRunning (c : Chan) (d : Device) : Works c d (d.leaveRunning c) :=
  ((works_settleCommit c d).trans (works_settleRefresh c _)).trans (works_settleFlush c _)

theorem works_contextStep (c : Chan) (k : Option Count) (d : Device) : Works c d (d.contextStep c k) := by
  unfold Device.contextStep
  dsimp only
  refine Works.trans ?_ ((Works.modChan _ c _).trans (works_tellMode c _ _ _ _))
  split
  · exact (Works.setChan d c _).trans (.settleOp c _ _ _ _ _ _)
  · exact .setChan d c _

theorem works_editStep (c : Chan) (r : Option EditReason) (k : Option Count) (d : Device) :
    Works c d (d.editStep c r k) := by
  unfold Device.editStep
  split
  · exact .refl c d
  · exact ((Works.modChan d c _).trans (works_setTracker c _ _ _)).trans (.raise c _ _ _)

/-! ## Frames to air -/

theorem works_raiseSlip (c : Chan) (k : SlipKind) (d : Device) : Works c d (d.raiseSlip c k) := .raise c _ _ d

theorem works_appendPicture (c : Chan) (p : Picture) (d : Device) : Works c d (d.appendPicture c p) := by
  unfold Device.appendPicture
  dsimp only
  split
  · exact (Works.setChan d c _).trans (works_raiseSlip c _ _)
  · exact .setChan d c _

theorem works_completeRecon (c : Chan) (d : Device) : Works c d (d.completeRecon c) := by
  unfold Device.completeRecon
  dsimp only
  split
  · exact .refl c d
  · split
    · exact (Works.setChan d c _).trans (works_appendPicture c _ _)
    · exact (Works.setChan d c _).trans (works_appendPicture c _ _)
    · exact .setChan d c _
    · exact .setChan d c _
    · exact .setChan d c _

theorem works_stopComplete (c : Chan) (d : Device) : Works c d (d.stopComplete c) := by
  unfold Device.stopComplete
  dsimp only
  split
  · exact ((Works.modChan d c _).trans (works_setTracker c _ _ _)).trans (.settleOp c _ _ _ _ _ _)
  · exact (Works.modChan d c _).trans (works_setTracker c _ _ _)

theorem works_outputFrame (c : Chan) (d : Device) : Works c d (d.outputFrame c) := by
  unfold Device.outputFrame
  dsimp only
  split
  · exact (Works.modChan d c _).trans (.setChan _ c _)
  · exact (Works.modChan d c _).trans (.setChan _ c _)
  · split
    · exact ((Works.modChan d c _).trans (.setChan _ c _)).trans (works_raiseSlip c _ _)
    · exact (Works.modChan d c _).trans (.setChan _ c _)
  · exact (Works.modChan d c _).trans (.setChan _ c _)
  · exact (Works.modChan d c _).trans (works_stopComplete c _)

/-! ## Output timing -/

theorem works_setTiming (c : Chan) (t : TimingState) (d : Device) : Works c d (d.setTiming c t) := .modChan d c _

theorem works_keepPeriod (c : Chan) (p : Option Ticks) (d : Device) : Works c d (d.keepPeriod c p) := .modChan d c _

theorem works_raiseTiming (c : Chan) (r : TimingReason) (d : Device) : Works c d (d.raiseTiming c r) := .raise c _ _ d

theorem works_settleTiming (c : Chan) (r : TimingReason) (d : Device) : Works c d (d.settleTiming c r) := by
  unfold Device.settleTiming
  split
  · exact .settleOp c _ _ _ _ _ _
  · exact .refl c d

theorem works_guardedFrame (c : Chan) (d : Device) : Works c d (d.guardedFrame c) := by
  unfold Device.guardedFrame
  dsimp only
  split
  · exact works_outputFrame c d
  · exact .refl c d

theorem works_declareLock (c : Chan) (t : RefSource) (b : Bool) (i : Option Ticks) (d : Device) :
    Works c d (d.declareLock c t b i) := by
  unfold Device.declareLock
  dsimp only
  split
  · exact ((((works_setTiming c _ d).trans (works_keepPeriod c _ _)).trans (works_guardedFrame c _)).trans
      (works_raiseTiming c _ _)).trans (works_settleTiming c _ _)
  · exact (((works_setTiming c _ d).trans (works_keepPeriod c _ _)).trans (works_guardedFrame c _)).trans
      (works_raiseTiming c _ _)

theorem works_referenceStart (c : Chan) (src : RefSource) (i : Option Ticks) (d : Device) :
    Works c d (d.referenceStart c src i) := by
  unfold Device.referenceStart
  dsimp only
  split
  · exact .refl c d
  · split
    · refine Works.trans ?_ (works_guardedFrame c _)
      split
      · exact works_keepPeriod c _ d
      · exact .refl c d
    · exact .refl c d
  · split
    · exact (works_setTiming c _ d).trans (works_raiseTiming c _ _)
    · exact .refl c d
  · repeat' split
    all_goals
      first
      | exact works_declareLock c _ _ _ d
      | exact (works_setTiming c _ d).trans (works_guardedFrame c _)
      | exact works_setTiming c _ d

theorem works_loseReference (c : Chan) (d : Device) : Works c d (d.loseReference c) := by
  unfold Device.loseReference
  split
  · exact ((works_setTiming c _ d).trans (works_outputFrame c _)).trans (works_raiseTiming c _ _)
  · exact .refl c d

theorem works_losePriorReference (c : Chan) (d : Device) : Works c d (d.losePriorReference c) := by
  unfold Device.losePriorReference
  split
  · split
    · exact (works_setTiming c _ d).trans (works_outputFrame c _)
    · exact .refl c d
  · exact .refl c d

theorem works_failAcquisition (c : Chan) (d : Device) : Works c d (d.failAcquisition c) := by
  unfold Device.failAcquisition
  dsimp only
  split
  · split
    · exact (((works_setTiming c _ d).trans (works_keepPeriod c _ _)).trans (works_raiseTiming c _ _)).trans
        (works_settleTiming c _ _)
    · exact ((works_setTiming c _ d).trans (works_keepPeriod c _ _)).trans (works_raiseTiming c _ _)
  · exact .refl c d

theorem works_inputStart (c : Chan) (d : Device) : Works c d (d.inputStart c) :=
  (Works.modChan d c _).trans (works_referenceStart c _ _ _)

theorem works_reconfigureTiming (c : Chan) (d : Device) : Works c d (d.reconfigureTiming c) := by
  unfold Device.reconfigureTiming
  dsimp only
  split
  · exact (Works.setChan d c _).trans (works_raiseTiming c _ _)
  · exact .setChan d c _

/-! ## Fields -/

theorem works_keepField (c : Chan) (f : InField) (slot : Slot) (d : Device) : Works c d (d.keepField c f slot) := by
  unfold Device.keepField
  dsimp only
  exact (((works_closeField c d).trans (.setChan _ c _)).trans (works_setTracker c _ _ _)).trans (.modChan _ c _)

theorem works_removeField (c : Chan) (d : Device) : Works c d (d.removeField c) :=
  (works_closeField c d).trans (.modChan _ c _)

theorem works_endField (c : Chan) (d : Device) : Works c d (d.endField c) := by
  unfold Device.endField
  dsimp only
  split
  · split
    · exact works_keepField c _ _ d
    · exact works_removeField c d
  · exact .refl c d

theorem works_fieldEnds (c : Chan) (d : Device) : Works c d (d.fieldEnds (.latest c)) := by
  unfold Device.fieldEnds
  dsimp only
  split
  · exact works_endField c d
  · exact .refl c d

theorem works_dropField (c : Chan) (d : Device) : Works c d (d.dropField c) := by
  unfold Device.dropField
  split
  · exact (works_closeField c d).trans (.modChan _ c _)
  · exact .refl c d

theorem works_declareLoss (c : Chan) (why : LossReason) (d : Device) : Works c d (d.declareLoss c why) := by
  unfold Device.declareLoss
  dsimp only
  exact (((((works_dropField c d).trans (.modChan _ c _)).trans (works_setTracker c _ _ _)).trans
    (.modChan _ c _)).trans (.raise c _ _ _)).trans (works_leaveRunning c _)

theorem works_timeoutExpires (c : Chan) (d : Device) : Works c d (d.timeoutExpires c) := by
  unfold Device.timeoutExpires
  split
  · exact works_declareLoss c _ d
  · exact .refl c d

theorem works_takeIn (c : Chan) (label : Label) (d : Device) : Works c d (d.takeIn c label) := by
  unfold Device.takeIn
  dsimp only
  refine Works.trans ?_ (works_inputStart c _)
  refine Works.trans ?_ (.modChan _ c _)
  refine Works.trans ?_ (works_settleFlush c _)
  refine Works.trans ?_ (works_editStep c _ _ _)
  refine Works.trans ?_ (works_contextStep c _ _)
  refine Works.trans ?_ (.modChan _ c _)
  refine Works.trans ?_ (works_settleCommit c _)
  exact (Works.modChan d c _).trans (.modChan _ c _)

theorem works_endHolding (c : Chan) (d : Device) : Works c d (d.endHolding c) :=
  (Works.modChan d c _).trans (.raise c _ _ _)

theorem works_wrongWhileHolding (c : Chan) (d : Device) : Works c d (d.wrongWhileHolding c) := by
  unfold Device.wrongWhileHolding
  split
  · exact (Works.modChan d c _).trans (.raise c _ _ _)
  · exact .refl c d

theorem works_fieldStart (c : Chan) (label : Label) (d : Device) : Works c d (d.fieldStart c label) := by
  unfold Device.fieldStart
  split
  · dsimp only
    split
    · exact (works_endField c d).trans (works_takeIn c label _)
    · exact (works_endField c d).trans (works_declareLoss c _ _)
  · split
    · exact (works_endHolding c d).trans (works_takeIn c label _)
    · exact works_wrongWhileHolding c d
  all_goals exact .refl c d

/-! ## What the controller does -/

theorem works_configure (c : Chan) (s : Settings) (d : Device) : Works c d (d.configure c s) := by
  unfold Device.configure
  dsimp only
  split
  · exact (Works.modChan d c _).trans (works_reconfigureTiming c _)
  · exact .modChan d c _

theorem works_startChannel (c : Chan) (d : Device) : Works c d (d.startChannel c) :=
  (Works.modChan d c _).trans (works_setTracker c _ _ _)

theorem works_stopChannel (c : Chan) (d : Device) : Works c d (d.stopChannel c) := by
  unfold Device.stopChannel
  dsimp only
  split
  · exact (((Works.modChan d c _).trans (works_dropField c _)).trans (.modChan _ c _)).trans
      (works_leaveRunning c _)
  · exact ((Works.modChan d c _).trans (works_dropField c _)).trans (.modChan _ c _)

theorem works_foldl {α : Type} (c : Chan) (f : Device → α → Device) (h : ∀ d a, Works c d (f d a)) (as : List α)
    (d : Device) : Works c d (as.foldl f d) := by
  induction as generalizing d with
  | nil => exact .refl c d
  | cons a as ih => exact (h d a).trans (ih _)

theorem works_abortOps (c : Chan) (d : Device) : Works c d (d.abortOps c) :=
  works_foldl c _ (fun _ _ => .settleOp c _ _ _ _ _ _) _ d

theorem works_resetChannel (c : Chan) (d : Device) : Works c d (d.resetChannel c) := by
  unfold Device.resetChannel
  dsimp only
  exact ((Works.modChan d c _).trans (works_foldl c _ (fun _ _ => .lower c _ _) _ _)).trans (works_abortOps c _)

end Sys2Proof.Machine
end

