-- ==== Sys2Proof/Laws/Link.lean ====
section
/-! SUPPORT. What a delivered command and an event do, said once: a command that the link takes at once is its rule's
effect alone, and an event with no command waiting is its own effect alone. -/

namespace Sys2Proof.Machine

/-! ## What work on one channel leaves -/

/-- A device with the same shell and the same other channels keeps the rest. -/
theorem Device.keepsRest_of_shell {c : Chan} {d d' : Device} (h : d'.shell = d.shell)
    (ho : ∀ c', c' ≠ c → d'.chan c' = d.chan c') : Device.KeepsRest c d d' where
  others := ho
  now := congrArg Shell.now h
  phase := congrArg Shell.phase h
  supplyGood := congrArg Shell.supplyGood h
  pinAsserted := congrArg Shell.pinAsserted h
  strap1 := congrArg Shell.strap1 h
  strap0 := congrArg Shell.strap0 h
  lineRate := congrArg Shell.lineRate h
  cause := congrArg Shell.cause h
  profiles := congrArg Shell.profiles h
  watermark := congrArg Shell.watermark h
  receiver := congrArg Shell.receiver h
  gapSince := congrArg Shell.gapSince h
  noiseRun := congrArg Shell.noiseRun h
  fifo := congrArg Shell.fifo h
  cues := congrArg Shell.cues h
  cueOutside := congrArg Shell.cueOutside h
  houseFamily := congrArg Shell.houseFamily h
  lastHouse := congrArg Shell.lastHouse h

/-- Work on one channel keeps the rest. -/
theorem Works.keepsRest {c : Chan} {d d' : Device} (h : Works c d d') : Device.KeepsRest c d d' :=
  Device.keepsRest_of_shell h.shell h.others

/-- A reply keeps everything but the reply queue and the uplink. -/
theorem Works.answer (c : Chan) (tag kind : Byte) (st : Status) (rs : List Byte) (d : Device) :
    Device.KeepsRest c d (d.answer tag kind st rs) :=
  Device.keepsRest_of_shell (d.answer_shell tag kind st rs) fun c' _ => d.answer_chan tag kind st rs c'

/-! ## The executor -/

/-- With no frame waiting the executor takes nothing. -/
theorem Device.execute_nil {d : Device} (h : d.fifo = []) (n : Nat) : d.execute n = d := by
  cases n <;> simp [Device.execute, h]

/-- With no frame waiting the test of the conditions of R162 changes nothing. -/
theorem Device.settle_nil {d : Device} (h : d.fifo = []) : d.settle = d := d.execute_nil h _

/-- A command frame that arrives at a Ready link is taken at once, and what is left is the effect of its rule. -/
theorem Device.deliver_of_ready {d : Device} (h : d.Ready) (f : Command) : d.deliver f = d.takeFrame f := by
  obtain ⟨hp, hf, hr⟩ := h
  have h1 : d.linkUp = true := by simp [Device.linkUp, hp]
  have h2 : d.acceptFrame f = { d with fifo := [f] } := by simp [Device.acceptFrame, hf, Config.fifoDepth]
  have h3 : ({ d with fifo := [f] } : Device).mayTake = true := by
    simp only [Device.mayTake, decide_eq_true_eq]
    omega
  have h4 : ({ d with fifo := [] } : Device) = d := by cases d; simp_all
  simp [Device.deliver, h1, h2, Device.settle, Device.execute, h3, h4]

/-- In reset and STARTING a command frame is ignored (R182). -/
theorem Device.deliver_of_down {d : Device} (h : d.phase ≠ .operating) (f : Command) : d.deliver f = d := by
  simp [Device.deliver, Device.linkUp, h]

/-- A command row at a Ready link. -/
theorem State.onCommand_of_ready {s : State} (h : s.dev.Ready) (kind tag : Byte) (p : List Byte) :
    s.onCommand kind tag p = .next { s with dev := s.dev.takeFrame ⟨kind, tag, p⟩ } := by
  simp [State.onCommand, State.onDevice, Device.deliver_of_ready h]

/-- An event row when no reset holds the blocks and no command waits, for an event that puts no frame into the FIFO. -/
theorem State.onEvent_of_quiet {s : State} (h : s.dev.Quiet) (t : Ticks) (f : Device → Device)
    (hf : (f (s.dev.arrive t)).fifo = s.dev.fifo) : s.onEvent t f = .next { s with dev := f (s.dev.arrive t) } := by
  obtain ⟨hp, hq⟩ := h
  have h1 : s.dev.released = true := by
    unfold Device.released
    split <;> simp_all
  simp [State.onEvent, State.onDevice, h1, Device.settle_nil (hf.trans hq)]

/-! ## Checks that stand before a command's effect -/

/-- A short command with a free tag acts. -/
theorem Device.unlessTagged_of_free {d : Device} {tag : Byte} (h : d.tagInUse tag = false) (kind : Byte)
    (act : Device → Device) : d.unlessTagged tag kind act = act d := by
  simp [Device.unlessTagged, h]

/-- A short command whose tag is in use is refused TAG_IN_USE (R153). -/
theorem Device.unlessTagged_of_used {d : Device} {tag : Byte} (h : d.tagInUse tag = true) (kind : Byte)
    (act : Device → Device) : d.unlessTagged tag kind act = d.answer tag kind .tagInUse [] := by
  simp [Device.unlessTagged, h]

/-- A long command with a free tag and a free slot acts. -/
theorem Device.unlessFull_of_free {d : Device} {tag : Byte} (h : d.tagInUse tag = false)
    (hs : d.ops.length < Config.operationSlots) (kind : Byte) (act : Device → Device) :
    d.unlessFull tag kind act = act d := by
  simp [Device.unlessFull, h, Device.slotsFull, hs]

theorem byteAt_cons_zero (b : Byte) (p : List Byte) : byteAt (b :: p) 0 = b.toNat := rfl

theorem byteAt_cons_succ (b : Byte) (p : List Byte) (i : Nat) : byteAt (b :: p) (i + 1) = byteAt p i := rfl

/-- A number below 256 is read back from its one byte (R168). -/
theorem byteAt_byte1 {n : Nat} (h : n < 256) (p : List Byte) : byteAt (byte1 n ++ p) 0 = n := by
  simp [byteAt, byte1, Nat.mod_eq_of_lt h]

/-- A number below 65536 is read back from its two bytes, most significant byte first (R157, R168). -/
theorem wordAt_byte2 {n : Nat} (h : n < 65536) (p : List Byte) : wordAt (byte2 n ++ p) 0 = n := by
  simp [wordAt, byteAt, byte2]
  omega

@[simp] theorem chanOf_val (c : Chan) : chanOf c.val = some c := by
  simp [chanOf]

end Sys2Proof.Machine
end

