-- ==== Sys2Proof/Laws/Channel.lean ====
section
/-! SUPPORT. What the shared pieces of work on a channel do to that channel, to the operations table and to the log, said
once, and the event row that is work on one channel. -/

namespace Sys2Proof.Machine

/-! ## One channel -/

@[simp] theorem Device.setChan_setChan (d : Device) (c : Chan) (a b : Channel) :
    (d.setChan c a).setChan c b = d.setChan c b := by
  simp [Device.setChan]

theorem Device.setChan_chan_self (d : Device) (c : Chan) : d.setChan c (d.chan c) = d := by
  simp [Device.setChan, Device.chan]

/-- The uplink's choice, a raise and the dropout log do not read the channels, so a channel may be replaced before them
or after. -/
theorem Device.choose_setChan (d : Device) (c : Chan) (ch : Channel) :
    (d.setChan c ch).choose = d.choose.setChan c ch := by
  unfold Device.choose Device.setChan
  dsimp only
  split
  · split
    · rfl
    · split <;> rfl
  · rfl
theorem Device.raise_setChan (src : Source) (detail : Detail) (d : Device) (c : Chan) (ch : Channel) :
    (d.setChan c ch).raise src detail = (d.raise src detail).setChan c ch :=
  Device.choose_setChan ({ d with notices := d.notices.set src.index ((d.notice src).raise detail) } : Device) c ch
theorem Device.logRecord_setChan (d : Device) (r : DropRecord) (c : Chan) (ch : Channel) :
    (d.setChan c ch).logRecord r = (d.logRecord r).setChan c ch := by
  have hw : (d.setChan c ch).watermark = d.watermark := rfl
  have ha := Device.raise_setChan .logWatermark (.logWatermark (d.dropLog ++ [r]).length)
    ({ d with dropLog := d.dropLog ++ [r] } : Device) c ch
  have ho := Device.raise_setChan .logOverflow .logOverflow ({ d with overflow := true } : Device) c ch
  unfold Device.logRecord
  by_cases hl : d.dropLog.length < Config.logDepth
  · by_cases hm : (d.dropLog ++ [r]).length = d.watermark
    · simp only [Device.setChan_dropLog, hw, if_pos hl, if_pos hm]
      exact ha
    · simp only [Device.setChan_dropLog, hw, if_pos hl, if_neg hm]
      rfl
  · cases hf : d.overflow
    · simp only [Device.setChan_dropLog, Device.setChan_overflow, if_neg hl, hf, Bool.false_eq_true, if_false]
      exact ho
    · simp only [Device.setChan_dropLog, Device.setChan_overflow, if_neg hl, hf, if_true]
      rfl
theorem Device.logRecords_setChan (rs : List DropRecord) (d : Device) (c : Chan) (ch : Channel) :
    (d.setChan c ch).logRecords rs = (d.logRecords rs).setChan c ch := by
  induction rs generalizing d with
  | nil => rfl
  | cons r rs ih =>
    have h : ∀ d : Device, d.logRecords (r :: rs) = (d.logRecord r).logRecords rs := fun _ => rfl
    rw [h, h, Device.logRecord_setChan, ih]

/-- The expiry of a timer that has run out is the event of its row; of any other it does not happen (log 12). -/
theorem Device.expire_of_due {d : Device} {t : Timer} (h : d.due t = true) : d.expire t = d.fire t := if_pos h
theorem Device.expire_of_not_due {d : Device} {t : Timer} (h : d.due t = false) : d.expire t = d := by
  simp [Device.expire, h]

/-- An event that is work on one channel, when no reset holds the blocks and no command waits. -/
theorem State.onEvent_of_works {s : State} (h : s.dev.Quiet) (t : Ticks) (c : Chan) (f : Device → Device)
    (hw : Works c (s.dev.arrive t) (f (s.dev.arrive t))) : s.onEvent t f = .next { s with dev := f (s.dev.arrive t) } :=
  State.onEvent_of_quiet h t f (by rw [Device.fifo_of_shell hw.shell]; rfl)

/-- A FREEZE line is never driven by the part, so no channel's state reaches a cue freeze level (R178, R179). -/
@[simp] theorem Device.cueFreeze_setChan (d : Device) (c c' : Chan) (ch : Channel) :
    (d.setChan c ch).cueFreeze c' = d.cueFreeze c' := by
  unfold Device.cueFreeze
  congr 1
  funext n
  by_cases hf : (d.cue n).function = .freeze c'
  · have hf' : ((d.setChan c ch).cue n).function = .freeze c' := hf
    simp only [Device.cueActive, Device.sensed, Device.lineLevel, Device.drives, hf, hf']
    rfl
  · have hf' : ¬ ((d.setChan c ch).cue n).function = .freeze c' := hf
    simp [hf, hf']

/-! ## The tracker -/

@[simp] theorem Device.setTracker_chan (c : Chan) (t : Tracker) (r : CadenceReason) (d : Device) :
    (d.setTracker c t r).chan c = { d.chan c with tracker := t } := by
  simp only [Device.setTracker]
  split <;> simp
@[simp] theorem Device.setTracker_ops (c : Chan) (t : Tracker) (r : CadenceReason) (d : Device) :
    (d.setTracker c t r).ops = d.ops := by
  simp only [Device.setTracker]
  split <;> simp
@[simp] theorem Device.setTracker_dropLog (c : Chan) (t : Tracker) (r : CadenceReason) (d : Device) :
    (d.setTracker c t r).dropLog = d.dropLog := by
  simp only [Device.setTracker]
  split <;> simp

@[simp] theorem Device.setTracker_overflow (c : Chan) (t : Tracker) (r : CadenceReason) (d : Device) :
    (d.setTracker c t r).overflow = d.overflow := by
  simp only [Device.setTracker]
  split <;> simp

/-- An edit, a flush, a loss and a stop completion clear the tracker as R83 to R85 say. -/
theorem Tracker.cleared_eq (t : Tracker) : t.cleared = t.restarted := by
  unfold Tracker.cleared Tracker.restarted
  cases t.cadence <;> rfl

/-- Telling the tracker of a change of mode changes the tracker alone, as R82 says. -/
theorem Device.tellMode_chan (c : Chan) (a b : Option Context) (p : Option ForcedPhase) (d : Device) :
    (d.tellMode c a b p).chan c = { d.chan c with tracker := (d.chan c).tracker.told a b p } := by
  unfold Device.tellMode
  split
  · rename_i x y
    simp only [Tracker.told]
    by_cases h : x.params.mode = y.params.mode
    · simp only [if_pos h]
    · simp only [if_neg h, Device.setTracker_chan]
  · rename_i h
    rw [Tracker.told]
    exact h
@[simp] theorem Device.tellMode_dropLog (c : Chan) (a b : Option Context) (p : Option ForcedPhase) (d : Device) :
    (d.tellMode c a b p).dropLog = d.dropLog := by
  unfold Device.tellMode
  split
  · split <;> simp
  · rfl
@[simp] theorem Device.tellMode_overflow (c : Chan) (a b : Option Context) (p : Option ForcedPhase) (d : Device) :
    (d.tellMode c a b p).overflow = d.overflow := by
  unfold Device.tellMode
  split
  · split <;> simp
  · rfl
@[simp] theorem Device.tellMode_ops (c : Chan) (a b : Option Context) (p : Option ForcedPhase) (d : Device) :
    (d.tellMode c a b p).ops = d.ops := by
  unfold Device.tellMode
  split
  · split <;> simp
  · rfl

/-! ## The dropout log and the field in intake -/

@[simp] theorem Device.logRecords_ops (rs : List DropRecord) (d : Device) : (d.logRecords rs).ops = d.ops := by
  induction rs generalizing d with
  | nil => rfl
  | cons r rs ih => exact (ih _).trans (by simp)
@[simp] theorem Device.logRecords_chan (rs : List DropRecord) (d : Device) (c : Chan) :
    (d.logRecords rs).chan c = d.chan c := by
  induction rs generalizing d with
  | nil => rfl
  | cons r rs ih => exact (ih _).trans (by simp)

/-- Records handed to the log are appended while it has a place; the rest are discarded, which sets the overflow flag
(R62). -/
theorem Device.logRecords_log (rs : List DropRecord) (d : Device) :
    (d.logRecords rs).dropLog = d.dropLog ++ rs.take (Config.logDepth - d.dropLog.length) ∧
    (d.logRecords rs).overflow = (d.overflow || decide (Config.logDepth - d.dropLog.length < rs.length)) := by
  induction rs generalizing d with
  | nil => simp [Device.logRecords]
  | cons r rs ih =>
    have h : d.logRecords (r :: rs) = (d.logRecord r).logRecords rs := rfl
    have hl := d.logRecord_log r
    rw [h, (ih _).1, (ih _).2]
    split at hl <;> simp only [Prod.mk.injEq] at hl <;> rw [hl.1, hl.2]
    · rename_i hd
      obtain ⟨n, hn⟩ : ∃ n, Config.logDepth - d.dropLog.length = n + 1 := ⟨_, (Nat.succ_pred (by omega)).symm⟩
      have hm : Config.logDepth - (d.dropLog.length + 1) = n := by omega
      simp [hn, hm]
    · rename_i hd
      have h0 : Config.logDepth - d.dropLog.length = 0 := by omega
      simp [h0]

/-- Closing the field in intake lets it go and changes nothing else of the channel (R60). -/
theorem Device.closeField_chan (c : Chan) (d : Device) :
    (d.closeField c).chan c = { d.chan c with intake := { (d.chan c).intake with field := none } } := by
  unfold Device.closeField
  dsimp only
  split
  · simp
  · rename_i h
    rw [← h]
@[simp] theorem Device.closeField_ops (c : Chan) (d : Device) : (d.closeField c).ops = d.ops := by
  unfold Device.closeField
  dsimp only
  split <;> simp

/-- The field in intake that is let go leaves the ring with it (R1, R16). -/
theorem Device.dropField_chan (c : Chan) (d : Device) :
    (d.dropField c).chan c =
      { d.chan c with intake := { (d.chan c).intake with field := none, ring := (d.chan c).intake.keptRing } } := by
  unfold Device.dropField Intake.keptRing
  split
  · rename_i f h
    simp [Device.closeField_chan, h]
  · rename_i h
    simp only [h, Option.isSome_none, Bool.false_eq_true, if_false]
    rw [← h]

/-- The records open for the field in intake close into the log in the order they were opened (R58, log 6). -/
theorem Device.closeField_logged (c : Chan) (d : Device) :
    d.Logged (d.chan c).intake.openRecords (d.closeField c) := by
  unfold Device.closeField Intake.openRecords
  dsimp only
  split
  · rename_i f h
    rw [h]
    exact Device.logRecords_log f.openRecords (d.setChan c _)
  · rename_i h
    simp [Device.Logged, h]

theorem Device.dropField_logged (c : Chan) (d : Device) :
    d.Logged (d.chan c).intake.openRecords (d.dropField c) := by
  have h := d.closeField_logged c
  unfold Device.dropField
  split
  · exact h
  · rename_i h'
    simp [Device.Logged, Intake.openRecords, h']
@[simp] theorem Device.dropField_ops (c : Chan) (d : Device) : (d.dropField c).ops = d.ops := by
  unfold Device.dropField
  split <;> simp

/-! ## Output frames -/

/-- An output frame start makes the next be counted from it and leaves the rest of the generator as it was (R126). -/
theorem Device.outputFrame_gen (c : Chan) (d : Device) :
    ((d.outputFrame c).chan c).gen = { (d.chan c).gen with lastOut := d.now } := by
  unfold Device.outputFrame
  dsimp only
  split
  · simp
  · simp
  · split <;> simp [Device.raiseSlip]
  · simp
  · unfold Device.stopComplete
    dsimp only
    split <;> simp [Channel.stopped]

@[simp] theorem Device.outputFrame_dropLog (c : Chan) (d : Device) : (d.outputFrame c).dropLog = d.dropLog := by
  unfold Device.outputFrame
  dsimp only
  split
  · simp
  · simp
  · split <;> simp [Device.raiseSlip]
  · simp
  · unfold Device.stopComplete
    dsimp only
    split <;> simp

/-! ## Lowering several sources -/

/-- Lowering the sources of a list clears their flags, keeps their levels, and leaves every other record. -/
theorem Device.lower_foldl (srcs : List Source) (d : Device) :
    ∃ ns : Vector NoticeRecord 28, srcs.foldl (fun d src => d.lower src) d = { d with notices := ns } ∧
      (∀ src ∈ srcs, ns[src.index] = ⟨(d.notice src).level, none, false⟩) ∧
      ∀ i : Fin 28, (∀ src ∈ srcs, src.index ≠ i) → ns[i] = d.notices[i] := by
  induction srcs generalizing d with
  | nil => exact ⟨d.notices, rfl, by simp, by simp⟩
  | cons a l ih =>
    obtain ⟨ns, h1, h2, h3⟩ := ih (d.lower a)
    refine ⟨ns, h1, ?_, ?_⟩
    · intro src hs
      by_cases hl : ∃ b ∈ l, b.index = src.index
      · obtain ⟨b, hb, hi⟩ := hl
        have h := h2 b hb
        simp only [Device.notice, hi] at h
        rw [h]
        by_cases ha : a.index = src.index
        · simp [Device.notice, Device.lower, ha, NoticeRecord.lower, NoticeRecord.lowered]
        · have hv : (d.notices.set a.index.val (d.notices[a.index]).lower)[src.index] = d.notices[src.index] := by
            simp only [Fin.getElem_fin]
            exact Vector.getElem_set_ne _ _ (fun e => ha (Fin.ext e))
          exact congrArg (fun r : NoticeRecord => (⟨r.level, none, false⟩ : NoticeRecord)) hv
      · have h : ∀ b ∈ l, b.index ≠ src.index := fun b hb e => hl ⟨b, hb, e⟩
        rw [h3 _ h]
        rw [List.mem_cons] at hs
        obtain rfl | hs := hs
        · simp [Device.lower, Device.notice, NoticeRecord.lower, NoticeRecord.lowered]
        · exact absurd rfl (h src hs)
    · intro i hi
      simp only [List.mem_cons, forall_eq_or_imp] at hi
      rw [h3 i hi.2]
      simp only [Device.lower, Fin.getElem_fin]
      rw [Vector.getElem_set_ne]
      exact fun e => hi.1 (Fin.ext e)

/-! ## Bytes of a payload -/

/-- A channel number is read back from its byte. -/
@[simp] theorem byteAt_chan (c : Chan) (p : List Byte) : byteAt (BitVec.ofNat 8 c.val :: p) 0 = c.val := by
  have := c.isLt
  simp only [byteAt, List.getD_cons_zero, BitVec.toNat_ofNat]
  omega

/-- A command that names a channel in its one byte goes on with that channel. -/
theorem Device.withChannel_of_chan (d : Device) (tag kind : Byte) (c : Chan) (act : Chan → Device → Device) :
    d.withChannel tag kind [BitVec.ofNat 8 c.val] act = act c d := by
  simp [Device.withChannel]

theorem systemOf_code (y : System) : systemOf (systemCode y).toNat = some y := by cases y <;> rfl

theorem onOffOf_onOff (b : Bool) : onOffOf (onOff b).toNat = some b := by cases b <;> rfl

end Sys2Proof.Machine
end

