-- ==== Sys2Proof/Laws/Settling.lean ====
section
/-! SUPPORT. The operations that are pending on a channel, what settling one of them does to the others, and what a channel
becomes when all that is pending on it is settled, said once. -/

namespace Sys2Proof.Machine

/-! ## The operations of a kind on a channel (R154) -/

theorem Device.pendingOp_eq_head (d : Device) (k : OpName) (c : Chan) :
    d.pendingOp k c = (d.pendingOps k c).head? := by
  rw [Device.pendingOps, List.head?_filter]
  rfl

theorem Device.isPending_eq_false {d : Device} {k : OpName} {c : Chan} :
    d.isPending k c = false ↔ d.pendingOps k c = [] := by
  rw [Device.isPending, Device.pendingOp_eq_head, Option.isSome_eq_false_iff, Option.isNone_iff_eq_none,
    List.head?_eq_none_iff]

theorem Device.mem_pendingOps {d : Device} {k : OpName} {c : Chan} {o : Operation} :
    o ∈ d.pendingOps k c ↔ o ∈ d.ops ∧ o.kind.name = k ∧ o.pendingOn c = true := by
  simp [Device.pendingOps]

theorem Device.mem_of_pendingOp {d : Device} {k : OpName} {c : Chan} {o : Operation} (h : d.pendingOp k c = some o) :
    o ∈ d.ops ∧ o.kind.name = k ∧ o.pendingOn c = true := by
  rw [Device.pendingOp_eq_head] at h
  exact Device.mem_pendingOps.1 (List.mem_of_mem_head? h)

/-- All that settling does to the table: the operation of the tag is settled, and leaves when it completes. -/
theorem Device.settleOp_ops_cases (tag : Byte) (c : Chan) (flag : DoneFlag) (p : Option FlushDone) (r : OpResult)
    (d : Device) :
    let ops := d.ops.map fun o => if o.tag = tag then o.settle c flag p r else o
    (d.settleOp tag c flag p r).ops = ops ∨ (d.settleOp tag c flag p r).ops = ops.filter fun o => decide (o.tag ≠ tag) := by
  obtain e | ⟨_, _, _, _, e⟩ := Device.completeOp_cases tag
    ({ d with ops := d.ops.map fun o => if o.tag = tag then o.settle c flag p r else o } : Device)
  · exact .inl (congrArg Device.ops e)
  · exact .inr ((congrArg Device.ops e).trans (Device.enterReply_ops _ _))

theorem Device.settleOp_tags_sub (tag : Byte) (c : Chan) (flag : DoneFlag) (p : Option FlushDone) (r : OpResult)
    (d : Device) : ((d.settleOp tag c flag p r).ops.map (·.tag)).Sublist (d.ops.map (·.tag)) := by
  have h : (d.ops.map fun o => if o.tag = tag then o.settle c flag p r else o).map (·.tag) = d.ops.map (·.tag) := by
    rw [List.map_map]
    refine List.map_congr_left fun o _ => ?_
    simp only [Function.comp]
    split <;> rfl
  rw [← h]
  obtain e | e := d.settleOp_ops_cases tag c flag p r <;> rw [e]
  exact List.filter_sublist.map _

/-- Settling an operation leaves the operations of every other kind that are pending on a channel. -/
theorem Device.pendingOps_settleOp_of_ne {d : Device} {tag : Byte} {k : OpName}
    (h : ∀ o ∈ d.ops, o.tag = tag → o.kind.name ≠ k) (c c' : Chan) (flag : DoneFlag) (p : Option FlushDone)
    (r : OpResult) : (d.settleOp tag c flag p r).pendingOps k c' = d.pendingOps k c' := by
  have key : ∀ l : List Operation, (∀ o ∈ l, o.tag = tag → o.kind.name ≠ k) →
      ((l.map fun o => if o.tag = tag then o.settle c flag p r else o).filter
        fun o => decide (o.kind.name = k) && o.pendingOn c') = l.filter (fun o => decide (o.kind.name = k) && o.pendingOn c') ∧
      (((l.map fun o => if o.tag = tag then o.settle c flag p r else o).filter fun o => decide (o.tag ≠ tag)).filter
        fun o => decide (o.kind.name = k) && o.pendingOn c') =
          l.filter (fun o => decide (o.kind.name = k) && o.pendingOn c') := by
    intro l
    induction l with
    | nil => exact fun _ => ⟨rfl, rfl⟩
    | cons o l ih =>
      intro hl
      obtain ⟨h1, h2⟩ := ih fun o' ho => hl o' (List.mem_cons_of_mem _ ho)
      by_cases ht : o.tag = tag
      · have hk := hl o List.mem_cons_self ht
        have hk' : (o.settle c flag p r).kind.name ≠ k := hk
        have ht' : (o.settle c flag p r).tag = tag := ht
        simp only [List.map_cons, if_pos ht]
        exact ⟨by simpa [hk, hk'] using h1, by simpa [-List.filter_filter, ht', hk] using h2⟩
      · simp only [List.map_cons, if_neg ht]
        rw [List.filter_cons (p := fun o : Operation => decide (o.tag ≠ tag)), if_pos (by simpa using ht)]
        simp only [List.filter_cons, h1, h2, and_self]
  unfold Device.pendingOps
  obtain e | e := d.settleOp_ops_cases tag c flag p r <;> rw [e]
  · exact (key d.ops h).1
  · exact (key d.ops h).2

theorem Target.pendingOn_settle {c c' : Chan} {flag : DoneFlag} (hf : flag ≠ .clear) (p : Option FlushDone) (t : Target)
    (h : (t.settle c flag p).pendingOn c' = true) : t.pendingOn c' = true ∧ c' ≠ c := by
  unfold Target.settle at h
  split at h
  · simp [Target.pendingOn, hf] at h
  · refine ⟨h, ?_⟩
    rintro rfl
    simp_all

theorem Operation.pendingOn_settle {c c' : Chan} {flag : DoneFlag} (hf : flag ≠ .clear) (p : Option FlushDone)
    (r : OpResult) (o : Operation) (h : (o.settle c flag p r).pendingOn c' = true) :
    o.pendingOn c' = true ∧ c' ≠ c := by
  simp only [Operation.pendingOn, Operation.settle, List.any_map, List.any_eq_true, Function.comp] at h ⊢
  obtain ⟨t, ht, hp⟩ := h
  obtain ⟨h1, h2⟩ := Target.pendingOn_settle hf p t hp
  exact ⟨⟨t, ht, h1⟩, h2⟩

/-- What is pending after an operation's flag has left `clear` was pending before, and is not that operation on that
channel. -/
theorem Device.mem_pendingOps_settleOp {d : Device} {tag : Byte} {c c' : Chan} {flag : DoneFlag} (hf : flag ≠ .clear)
    {p : Option FlushDone} {r : OpResult} {k : OpName} {o : Operation}
    (h : o ∈ (d.settleOp tag c flag p r).pendingOps k c') :
    ∃ o' ∈ d.pendingOps k c', o'.tag = o.tag ∧ (o.tag = tag → c' ≠ c) := by
  obtain ⟨h1, h2, h3⟩ := Device.mem_pendingOps.1 h
  have h4 : o ∈ d.ops.map fun o => if o.tag = tag then o.settle c flag p r else o := by
    obtain e | e := d.settleOp_ops_cases tag c flag p r <;> rw [e] at h1
    · exact h1
    · exact List.mem_of_mem_filter h1
  obtain ⟨o', ho', rfl⟩ := List.mem_map.1 h4
  split at h2
  · rename_i ht
    rw [if_pos ht] at h3 ⊢
    obtain ⟨h5, h6⟩ := Operation.pendingOn_settle hf p r o' h3
    exact ⟨o', Device.mem_pendingOps.2 ⟨ho', h2, h5⟩, rfl, fun _ => h6⟩
  · rename_i ht
    rw [if_neg ht] at h3 ⊢
    exact ⟨o', Device.mem_pendingOps.2 ⟨ho', h2, h3⟩, rfl, fun e => absurd e ht⟩

/-- Settling makes nothing pending. -/
theorem Device.isPending_settleOp_of_false {d : Device} {k : OpName} {c' : Chan} (h : d.isPending k c' = false)
    (tag : Byte) (c : Chan) {flag : DoneFlag} (hf : flag ≠ .clear) (p : Option FlushDone) (r : OpResult) :
    (d.settleOp tag c flag p r).isPending k c' = false := by
  rw [Device.isPending_eq_false] at h ⊢
  refine List.eq_nil_iff_forall_not_mem.2 fun o ho => ?_
  obtain ⟨o', ho', _⟩ := Device.mem_pendingOps_settleOp hf ho
  rw [h] at ho'
  exact (List.not_mem_nil ho')

/-- The one operation of a kind that is pending on a channel is pending there no more once it is settled there. -/
theorem Device.isPending_settleOp_self {d : Device} {k : OpName} {c : Chan} {o : Operation}
    (h : d.pendingOp k c = some o) (hl : (d.pendingOps k c).length ≤ 1) {flag : DoneFlag} (hf : flag ≠ .clear)
    (p : Option FlushDone) (r : OpResult) : (d.settleOp o.tag c flag p r).isPending k c = false := by
  rw [Device.isPending_eq_false]
  refine List.eq_nil_iff_forall_not_mem.2 fun q hq => ?_
  obtain ⟨o', ho', ht, hn⟩ := Device.mem_pendingOps_settleOp hf hq
  rw [Device.pendingOp_eq_head] at h
  cases hp : d.pendingOps k c with
  | nil => simp [hp] at h
  | cons a l =>
    rw [hp] at h hl ho'
    obtain rfl : a = o := by simpa using h
    obtain rfl : l = [] := by
      cases l with
      | nil => rfl
      | cons b l => simp at hl
    obtain rfl : o' = a := by simpa using ho'
    exact hn ht.symm rfl

/-- With distinct tags, the operations of a tag are of one kind. -/
theorem Device.OpsDistinct.kind_ne {d : Device} (h : (d.ops.map (·.tag)).Nodup) {k k' : OpName} {c : Chan}
    {o : Operation} (ho : d.pendingOp k c = some o) (hk : k' ≠ k) : ∀ q ∈ d.ops, q.tag = o.tag → q.kind.name ≠ k' := by
  intro q hq ht
  obtain ⟨h1, h2, _⟩ := Device.mem_of_pendingOp ho
  rw [List.inj_on_of_nodup_map h hq h1 ht, h2]
  exact hk.symm

/-! ## Settling what is pending (R155) -/

/-- A commit that is pending on a channel is swapped in, and the channel's reader alone changes (R32, R34). -/
theorem Device.settleCommit_chan (c : Chan) (d : Device) :
    (d.settleCommit c).chan c =
      { d.chan c with reader := if d.isPending .commit c then (d.chan c).reader.swap else (d.chan c).reader } := by
  unfold Device.settleCommit Device.swapPlan Device.isPending
  split <;> simp_all

/-- A refresh off the field starts reloads the context with the id it asked for and tells the tracker, and changes nothing
else of the channel (R48, R82). -/
theorem Device.refreshNow_chan (c : Chan) (tag : Byte) (d : Device) :
    (d.refreshNow c tag).chan c =
      let ch := d.chan c
      let context := ch.context.map fun x => reloadContext d.profiles ch.settings x.requested
      { ch with context := context, tracker := ch.tracker.told ch.context context none } := by
  unfold Device.refreshNow
  dsimp only
  rw [Device.settleOp_chan, Device.tellMode_chan, Device.chan_modChan_self]
  rfl

/-- A context that stays as it was tells the tracker nothing. -/
@[simp] theorem Tracker.told_self (t : Tracker) (x : Option Context) (p : Option ForcedPhase) : t.told x x p = t := by
  cases x <;> simp [Tracker.told]

theorem Device.settleRefresh_chan (c : Chan) (d : Device) :
    (d.settleRefresh c).chan c =
      let ch := d.chan c
      let context :=
        if d.isPending .refresh c then ch.context.map fun x => reloadContext d.profiles ch.settings x.requested
        else ch.context
      { ch with context := context, tracker := ch.tracker.told ch.context context none } := by
  unfold Device.settleRefresh Device.isPending
  split
  · rename_i o h
    simpa [h] using d.refreshNow_chan c o.tag
  · rename_i h
    simp [h]

/-- A flush that is performed on a channel changes that channel as R104 says, and its operation (R101, R104). -/
theorem Device.flushNow_chan (c : Chan) (asked : FlushScope) (tag : Byte) (d : Device) :
    (d.flushNow c asked tag).chan c = (d.chan c).flushed asked := by
  unfold Device.flushNow Channel.flushed
  cases flushWindow asked (d.chan c).tracker.cadence <;> simp [markStale]

theorem Device.settleFlush_chan (c : Chan) (d : Device) :
    (d.settleFlush c).chan c =
      match d.flushPending c with
      | some asked => (d.chan c).flushed asked
      | none => d.chan c := by
  unfold Device.settleFlush Device.flushPending
  cases d.pendingOp .flush c with
  | none => rfl
  | some o =>
    obtain ⟨tag, kind, ts, r⟩ := o
    cases kind <;> first | rfl | exact d.flushNow_chan c _ _

/-- Settling the commit leaves what is pending of every other kind. -/
theorem Device.pendingOps_settleCommit {d : Device} (h : (d.ops.map (·.tag)).Nodup) {k : OpName} (hk : k ≠ .commit)
    (c : Chan) : (d.settleCommit c).pendingOps k c = d.pendingOps k c := by
  unfold Device.settleCommit
  split
  · rename_i o ho
    exact Device.pendingOps_settleOp_of_ne (d := d.modChan c _) (Device.OpsDistinct.kind_ne h ho hk) c c _ _ _
  · rfl

/-- What is pending of every kind is the same when the table is. -/
theorem Device.pendingOp_congr {d d' : Device} (h : d'.ops = d.ops) (k : OpName) (c : Chan) :
    d'.pendingOp k c = d.pendingOp k c := by
  simp [Device.pendingOp, h]

/-- Settling the refresh leaves what is pending of every other kind. -/
theorem Device.pendingOps_settleRefresh {d : Device} (h : (d.ops.map (·.tag)).Nodup) {k : OpName} (hk : k ≠ .refresh)
    (c : Chan) : (d.settleRefresh c).pendingOps k c = d.pendingOps k c := by
  unfold Device.settleRefresh
  split
  · rename_i o ho
    have e : ((d.modChan c fun ch => { ch with context := refreshContext d.profiles (d.chan c).settings (d.chan c).context }).tellMode
        c (d.chan c).context (refreshContext d.profiles (d.chan c).settings (d.chan c).context) none).ops = d.ops := by
      simp
    unfold Device.refreshNow
    dsimp only
    rw [Device.pendingOps_settleOp_of_ne]
    · simp [Device.pendingOps]
    · rw [e]
      exact Device.OpsDistinct.kind_ne h ho hk
  · rfl

theorem Device.settleCommit_tags (c : Chan) (d : Device) :
    ((d.settleCommit c).ops.map (·.tag)).Sublist (d.ops.map (·.tag)) := by
  unfold Device.settleCommit
  split
  · exact Device.settleOp_tags_sub ..
  · exact .refl _

@[simp] theorem Device.settleCommit_profiles (c : Chan) (d : Device) : (d.settleCommit c).profiles = d.profiles :=
  (works_settleCommit c d).keepsRest.profiles

/-- A channel that leaves RUNNING has its pending work settled in the order commit, refresh, flush (R155). -/
theorem Device.leaveRunning_chan {d : Device} (h : (d.ops.map (·.tag)).Nodup) (c : Chan) :
    (d.leaveRunning c).chan c = (d.chan c).settled d c := by
  have h1 := (d.settleCommit_tags c).nodup h
  have hr : (d.settleCommit c).isPending .refresh c = d.isPending .refresh c := by
    rw [Device.isPending, Device.isPending, Device.pendingOp_eq_head, Device.pendingOp_eq_head,
      Device.pendingOps_settleCommit h (by decide)]
  have hf : ((d.settleCommit c).settleRefresh c).flushPending c = d.flushPending c := by
    rw [Device.flushPending, Device.flushPending, Device.pendingOp_eq_head, Device.pendingOp_eq_head,
      Device.pendingOps_settleRefresh h1 (by decide), Device.pendingOps_settleCommit h (by decide)]
  rw [Device.leaveRunning, Device.settleFlush_chan, hf, Device.settleRefresh_chan, hr, Device.settleCommit_chan]
  simp only [Device.settleCommit_profiles]
  rfl

/-- Once a kind that is pending at most once on a channel has been settled there, none of that kind is pending. -/
theorem Device.isPending_settleCommit {d : Device} {c : Chan} (h : (d.pendingOps .commit c).length ≤ 1) :
    (d.settleCommit c).isPending .commit c = false := by
  unfold Device.settleCommit
  split
  · rename_i o ho
    exact Device.isPending_settleOp_self (d := d.modChan c _) ho h (by decide) _ _
  · rename_i ho
    simp [Device.isPending, ho]

theorem Device.isPending_settleRefresh {d : Device} {c : Chan} (h : (d.pendingOps .refresh c).length ≤ 1) :
    (d.settleRefresh c).isPending .refresh c = false := by
  unfold Device.settleRefresh
  split
  · rename_i o ho
    unfold Device.refreshNow
    dsimp only
    refine Device.isPending_settleOp_self ?_ ?_ (by decide) _ _
    · exact (Device.pendingOp_congr (by simp) _ _).trans ho
    · simpa [Device.pendingOps] using h
  · rename_i ho
    simp [Device.isPending, ho]

theorem Device.isPending_settleFlush {d : Device} {c : Chan} (h : (d.pendingOps .flush c).length ≤ 1) :
    (d.settleFlush c).isPending .flush c = false := by
  unfold Device.settleFlush
  split
  · rename_i tag asked ts r ho
    have key : ∀ d' : Device, d'.ops = d.ops → ∀ p, (d'.settleOp tag c .done p .none).isPending .flush c = false := by
      intro d' e p
      have ho' := (Device.pendingOp_congr e .flush c).trans ho
      exact Device.isPending_settleOp_self ho' (by simpa [Device.pendingOps, e] using h) (by decide) _ _
    unfold Device.flushNow
    split
    · exact key _ (by simp) _
    · exact key _ (by simp) _
  · rename_i ho
    rw [Device.isPending]
    cases hp : d.pendingOp .flush c with
    | none => rfl
    | some o =>
      obtain ⟨tag, kind, ts, r⟩ := o
      have hk := (Device.mem_of_pendingOp hp).2.1
      cases kind <;> simp [OpKind.name] at hk
      exact absurd hp (ho _ _ _ _)

/-- Settling the refresh or the flush makes nothing pending. -/
theorem Device.isPending_settleRefresh_of_false {d : Device} {k : OpName} {c : Chan} (h : d.isPending k c = false) :
    (d.settleRefresh c).isPending k c = false := by
  unfold Device.settleRefresh
  split
  · unfold Device.refreshNow
    dsimp only
    refine Device.isPending_settleOp_of_false ?_ _ _ (by decide) _ _
    rw [Device.isPending, Device.pendingOp_congr (d := d) (by simp)]
    exact h
  · exact h

theorem Device.isPending_settleFlush_of_false {d : Device} {k : OpName} {c : Chan} (h : d.isPending k c = false) :
    (d.settleFlush c).isPending k c = false := by
  unfold Device.settleFlush
  split
  · unfold Device.flushNow
    split <;> refine Device.isPending_settleOp_of_false ?_ _ _ (by decide) _ _ <;>
      rw [Device.isPending, Device.pendingOp_congr (d := d) (by simp)] <;> exact h
  · exact h

/-- A channel that leaves RUNNING has no commit, refresh or flush pending afterwards (R155). -/
theorem Device.isPending_leaveRunning {d : Device} {c : Chan} (ht : (d.ops.map (·.tag)).Nodup)
    (h : ∀ k, (d.pendingOps k c).length ≤ 1) {k : OpName} (hk : k = .commit ∨ k = .refresh ∨ k = .flush) :
    (d.leaveRunning c).isPending k c = false := by
  have h1 := (d.settleCommit_tags c).nodup ht
  unfold Device.leaveRunning
  obtain rfl | rfl | rfl := hk
  · exact Device.isPending_settleFlush_of_false
      (Device.isPending_settleRefresh_of_false (Device.isPending_settleCommit (h _)))
  · refine Device.isPending_settleFlush_of_false (Device.isPending_settleRefresh ?_)
    rw [Device.pendingOps_settleCommit ht (by decide)]
    exact h _
  · refine Device.isPending_settleFlush ?_
    rw [Device.pendingOps_settleRefresh h1 (by decide), Device.pendingOps_settleCommit ht (by decide)]
    exact h _

/-- Settling what is pending on a channel reaches no record of the dropout log (R155). -/
theorem Device.leaveRunning_log (c : Chan) (d : Device) :
    (d.leaveRunning c).dropLog = d.dropLog ∧ (d.leaveRunning c).overflow = d.overflow := by
  have h1 : (d.settleCommit c).dropLog = d.dropLog ∧ (d.settleCommit c).overflow = d.overflow := by
    unfold Device.settleCommit Device.swapPlan
    split <;> simp [Device.modChan, Device.setChan]
  have h2 : ∀ d : Device, (d.settleRefresh c).dropLog = d.dropLog ∧ (d.settleRefresh c).overflow = d.overflow := by
    intro d
    unfold Device.settleRefresh Device.refreshNow
    split <;> simp
  have h3 : ∀ d : Device, (d.settleFlush c).dropLog = d.dropLog ∧ (d.settleFlush c).overflow = d.overflow := by
    intro d
    unfold Device.settleFlush Device.flushNow
    split
    · split <;> simp
    · simp
  exact ⟨(h3 _).1.trans ((h2 _).1.trans h1.1), (h3 _).2.trans ((h2 _).2.trans h1.2)⟩

/-- What a channel's pending work leaves depends on the pending operations and the profile table alone. -/
theorem Channel.settled_congr {d d' : Device} {c : Chan} (hp : d'.profiles = d.profiles)
    (hk : ∀ k : OpName, k = .commit ∨ k = .refresh ∨ k = .flush → d'.pendingOp k c = d.pendingOp k c) (ch : Channel) :
    ch.settled d' c = ch.settled d c := by
  rw [Channel.settled, Channel.settled, Device.flushPending, Device.flushPending, Device.isPending, Device.isPending,
    Device.isPending, Device.isPending, hp, hk .commit (by simp), hk .refresh (by simp), hk .flush (by simp)]

end Sys2Proof.Machine
end

