-- ==== Sys2Proof/Laws/FieldStart.lean ====
section
/-! SUPPORT. What the steps of a field start do to the channel and to the operations pending on it, and what a reference
frame start does to a channel, said once. -/

namespace Sys2Proof.Machine

/-! ## The steps of R6 -/

/-- Steps 4 and 5 change the context, the phase memory and the tracker, and nothing else of the channel (R43, R24, R82). -/
theorem Device.contextStep_chan (c : Chan) (count : Option Count) (d : Device) :
    (d.contextStep c count).chan c =
      let ch := d.chan c
      let requested := requestedId ch.settings ch.reader.selection
      let after :=
        if reloads ch.context requested (d.isPending .refresh c) then some (reloadContext d.profiles ch.settings requested)
        else ch.context
      let phase := after.bind fun x => forcedPhase x.params count ch.reader.selection ch.reader.phaseMemory
      { ch with
        reader := { ch.reader with phaseMemory := phase }
        context := after
        tracker := ch.tracker.told ch.context after phase } := by
  unfold Device.contextStep Device.isPending
  dsimp only
  rw [Device.tellMode_chan, Device.chan_modChan_self]
  split <;> simp

/-- Step 6 marks the ring stale, clears the discard flag and clears the tracker when there is a reason (R8, R83). -/
theorem Device.editStep_chan (c : Chan) (reason : Option EditReason) (count : Option Count) (d : Device) :
    (d.editStep c reason count).chan c =
      let ch := d.chan c
      if reason.isSome then
        { ch with
          intake := { ch.intake with ring := markStale ch.intake.ring, discard := false }
          tracker := ch.tracker.cleared }
      else ch := by
  unfold Device.editStep
  cases reason <;> simp

@[simp] theorem Device.editStep_ops (c : Chan) (reason : Option EditReason) (count : Option Count) (d : Device) :
    (d.editStep c reason count).ops = d.ops := by
  unfold Device.editStep
  cases reason <;> simp

/-- There is an edit reason when any of the five conditions of R7 holds. -/
theorem editReason_isSome (discard jump parity plan cue : Bool) :
    (editReason discard jump parity plan cue).isSome = (discard || jump || parity || plan || cue) := by
  cases discard <;> cases jump <;> cases parity <;> cases plan <;> cases cue <;> rfl

/-- Steps 4 and 5 reach the operations as settling the pending refresh does, if there is one. -/
theorem Device.contextStep_ops (c : Chan) (count : Option Count) (d : Device) :
    ∃ d' : Device, d'.ops = d.ops ∧ (d.contextStep c count).ops =
      match d.pendingOp .refresh c with
      | some o => (d'.settleOp o.tag c .done none .none).ops
      | none => d.ops := by
  unfold Device.contextStep
  dsimp only
  rw [Device.tellMode_ops, Device.modChan_ops]
  cases d.pendingOp .refresh c
  · exact ⟨d, rfl, rfl⟩
  · exact ⟨_, Device.setChan_ops d c _, rfl⟩

/-- Steps 4 and 5 end a pending refresh and leave what is pending of every other kind. -/
theorem Device.pendingOps_contextStep {d : Device} (h : (d.ops.map (·.tag)).Nodup) {k : OpName} (hk : k ≠ .refresh)
    (c : Chan) (count : Option Count) : (d.contextStep c count).pendingOps k c = d.pendingOps k c := by
  obtain ⟨d', h1, h2⟩ := d.contextStep_ops c count
  rw [Device.pendingOps, h2]
  cases hp : d.pendingOp .refresh c with
  | none => rfl
  | some o =>
    have h3 : ∀ q ∈ d'.ops, q.tag = o.tag → q.kind.name ≠ k := by
      rw [h1]
      exact Device.OpsDistinct.kind_ne h hp hk
    rw [← Device.pendingOps, Device.pendingOps_settleOp_of_ne h3, Device.pendingOps, Device.pendingOps, h1]

theorem Device.isPending_contextStep {d : Device} {c : Chan} (h : (d.pendingOps .refresh c).length ≤ 1)
    (count : Option Count) : (d.contextStep c count).isPending .refresh c = false := by
  obtain ⟨d', h1, h2⟩ := d.contextStep_ops c count
  cases hp : d.pendingOp .refresh c with
  | none =>
    rw [hp] at h2
    rw [Device.isPending, Device.pendingOp_congr h2, hp]
    rfl
  | some o =>
    rw [hp] at h2
    rw [Device.isPending, Device.pendingOp_congr h2]
    refine Device.isPending_settleOp_self ((Device.pendingOp_congr h1 _ _).trans hp) ?_ (by decide) _ _
    rw [Device.pendingOps, h1]
    exact h

/-! ## Reference frame starts (R126, R128 to R130) -/

/-- An output frame start on a RUNNING channel changes its synchroniser as R135 and R136 say. -/
theorem Device.outputFrame_running {c : Chan} {d : Device} (h : (d.chan c).state = .running) :
    (d.outputFrame c).chan c =
      { d.chan c with
        gen := { (d.chan c).gen with lastOut := d.now }
        sync := ((d.chan c).runningFrame (d.frozen c)).1 } := by
  have hf : ({ d.chan c with gen := { (d.chan c).gen with lastOut := d.now } } : Channel).runningFrame (d.frozen c) =
      (d.chan c).runningFrame (d.frozen c) := rfl
  unfold Device.outputFrame
  dsimp only
  split <;> simp_all [Device.frozen, Device.modChan]
  split <;> simp [Device.raiseSlip]

@[simp] theorem Device.guardedFrame_chan (c : Chan) (d : Device) :
    (d.guardedFrame c).chan c =
      if (d.chan c).gen.lastOut + (d.chan c).settings.system.guard ≤ d.now then (d.outputFrame c).chan c else d.chan c := by
  unfold Device.guardedFrame
  dsimp only
  split <;> rfl

@[simp] theorem Device.raiseTiming_chan (c c' : Chan) (r : TimingReason) (d : Device) :
    (d.raiseTiming c r).chan c' = d.chan c' := by
  simp [Device.raiseTiming]

@[simp] theorem Device.settleTiming_chan (c c' : Chan) (r : TimingReason) (d : Device) :
    (d.settleTiming c r).chan c' = d.chan c' := by
  unfold Device.settleTiming
  split <;> simp

theorem withinBand_eq (y : System) (interval : Option Ticks) :
    withinBand y interval = interval.any fun i => decide (y.bandLow ≤ i ∧ i ≤ y.bandHigh) := by
  cases interval <;> simp [withinBand, System.inBand]

/-- What a reference frame start makes of a generator, by its state. -/
theorem Generator.referred_free {g : Generator} (h : g.state = .settled .free) (y : System) (src : RefSource)
    (interval : Option Ticks) (now : Ticks) : g.referred y src interval now = (g, false) := by
  simp [Generator.referred, h]

theorem Generator.referred_locked {g : Generator} {s : RefSource} (h : g.state = .settled (.locked s)) (y : System)
    (src : RefSource) (interval : Option Ticks) (now : Ticks) :
    g.referred y src interval now =
      if s = src then ({ g with kept := if withinBand y interval then interval else g.kept }, true) else (g, false) := by
  obtain ⟨state, kept, lastOut, lastInput⟩ := g
  subst h
  simp only [Generator.referred, withinBand_eq]

theorem Generator.referred_holdover {g : Generator} {s : RefSource} (h : g.state = .settled (.holdover s)) (y : System)
    (src : RefSource) (interval : Option Ticks) (now : Ticks) :
    g.referred y src interval now =
      if s = src then ({ g with state := .acquire ⟨false, src, .holdover src, g.kept, 1, now, true⟩ }, false)
      else (g, false) := by
  simp [Generator.referred, h]

theorem Generator.referred_acquire {g : Generator} {a : Acquisition} (h : g.state = .acquire a) (y : System)
    (src : RefSource) (interval : Option Ticks) (now : Ticks) :
    g.referred y src interval now =
      let follows := decide (a.prior = .locked src)
      let a' := if follows && withinBand y interval then { a with priorKept := interval } else a
      if a.target = src then
        if 8 ≤ a.nextRun (withinBand y interval) then
          ({ g with state := .settled (.locked src), kept := interval }, true)
        else ({ g with state := .acquire { a' with run := a.nextRun (withinBand y interval), seen := true } }, follows)
      else ({ g with state := .acquire a' }, follows) := by
  simp only [Generator.referred, h, Acquisition.nextRun, withinBand_eq]

/-- A reference frame start gives the generator its new state and kept period, and makes an output frame start when it
asks the half-period guard and half a period has passed since the last. -/
theorem Device.referenceStart_chan (c : Chan) (src : RefSource) (interval : Option Ticks) (d : Device) :
    (d.referenceStart c src interval).chan c =
      let ch := d.chan c
      let referred := ch.gen.referred ch.settings.system src interval d.now
      if referred.2 = true ∧ ch.gen.lastOut + ch.settings.system.guard ≤ d.now then
        ((d.setChan c { ch with gen := referred.1 }).outputFrame c).chan c
      else { ch with gen := referred.1 } := by
  have hs : ∀ t, d.setTiming c t = d.setChan c { d.chan c with gen := { (d.chan c).gen with state := t } } := fun _ => rfl
  have hk : ∀ p, d.keepPeriod c p = d.setChan c { d.chan c with gen := { (d.chan c).gen with kept := p } } := fun _ => rfl
  have hself : d.setChan c (d.chan c) = d := d.setChan_chan_self c
  unfold Device.referenceStart
  dsimp only
  split
  · rename_i h
    rw [Generator.referred_free h]
    simp
  · rename_i s h
    rw [Generator.referred_locked h]
    by_cases e : s = src
    · cases withinBand (d.chan c).settings.system interval
      · simp [e, hself]
      · simp [e, hk]
    · simp [e]
  · rename_i s h
    rw [Generator.referred_holdover h]
    by_cases e : s = src
    · simp [e, hs]
    · simp [e]
  · rename_i a h
    rw [Generator.referred_acquire h]
    generalize withinBand (d.chan c).settings.system interval = within
    have hr : ∀ b : Bool, (if b = true then ({ a with priorKept := interval } : Acquisition) else a).nextRun within =
        a.nextRun within := by
      intro b
      cases b <;> rfl
    have hc : ∀ b : Bool, (if b = true then ({ a with priorKept := interval } : Acquisition) else a).commanded =
        a.commanded := by
      intro b
      cases b <;> rfl
    have ht : ∀ b : Bool, (if b = true then ({ a with priorKept := interval } : Acquisition) else a).target =
        a.target := by
      intro b
      cases b <;> rfl
    simp only [hr, hc, ht]
    by_cases e : a.target = src
    · by_cases h8 : 8 ≤ a.nextRun within
      · simp only [e, if_true, if_pos h8, Device.declareLock]
        split <;> simp [Device.setTiming, Device.keepPeriod, Device.modChan]
      · by_cases hf : a.prior = .locked src <;> simp [e, h8, hf, hs]
    · by_cases hf : a.prior = .locked src <;> simp [e, hf, hs]

end Sys2Proof.Machine
end

