-- ==== Sys2Proof/Laws/Notified.lean ====
section
/-! SUPPORT. What work on a channel makes of the whole part, notices and replies with it, said once for each piece of it:
the channel as it then stands, and the raises and the ends of operations in their order. -/

namespace Sys2Proof.Machine

/-! ## Notices and replies do not read the channels -/

theorem Device.enterReply_setChan (r : Reply) (d : Device) (c : Chan) (ch : Channel) :
    (d.setChan c ch).enterReply r = (d.enterReply r).setChan c ch :=
  Device.choose_setChan ({ d with replies := d.replies ++ [r] } : Device) c ch

theorem Device.completeOp_setChan (tag : Byte) (d : Device) (c : Chan) (ch : Channel) :
    (d.setChan c ch).completeOp tag = (d.completeOp tag).setChan c ch := by
  unfold Device.completeOp
  rw [Device.setChan_ops]
  cases d.ops.find? fun o => decide (o.tag = tag) with
  | none => rfl
  | some o =>
    dsimp only
    split
    · exact Device.enterReply_setChan o.reply ({ d with ops := d.ops.filter fun o => decide (o.tag ≠ tag) } : Device) c ch
    · rfl

theorem Device.settleOp_setChan (tag : Byte) (c' : Chan) (flag : DoneFlag) (p : Option FlushDone) (r : OpResult)
    (d : Device) (c : Chan) (ch : Channel) :
    (d.setChan c ch).settleOp tag c' flag p r = (d.settleOp tag c' flag p r).setChan c ch :=
  Device.completeOp_setChan tag
    ({ d with ops := d.ops.map fun o => if o.tag = tag then o.settle c' flag p r else o } : Device) c ch

theorem Device.cadenceTold_setChan (c' : Chan) (before after : Tracker) (r : CadenceReason) (d : Device) (c : Chan)
    (ch : Channel) : (d.setChan c ch).cadenceTold c' before after r = (d.cadenceTold c' before after r).setChan c ch := by
  unfold Device.cadenceTold
  split
  · rfl
  · exact Device.raise_setChan ..

theorem Device.endsPending_setChan (d : Device) (k : OpName) (c' : Chan) (p : Option FlushDone) (r : OpResult)
    (u : Device) (c : Chan) (ch : Channel) :
    d.endsPending k c' p r (u.setChan c ch) = (d.endsPending k c' p r u).setChan c ch := by
  unfold Device.endsPending
  split
  · exact Device.settleOp_setChan ..
  · rfl

@[simp] theorem Device.cadenceTold_self (c : Chan) (t : Tracker) (r : CadenceReason) (d : Device) :
    d.cadenceTold c t t r = d := if_pos rfl
@[simp] theorem Device.cadenceTold_ops (c : Chan) (before after : Tracker) (r : CadenceReason) (d : Device) :
    (d.cadenceTold c before after r).ops = d.ops := by
  unfold Device.cadenceTold
  split <;> simp
@[simp] theorem Device.cadenceTold_chan (c : Chan) (before after : Tracker) (r : CadenceReason) (d : Device)
    (c' : Chan) : (d.cadenceTold c before after r).chan c' = d.chan c' := by
  unfold Device.cadenceTold
  split <;> simp
@[simp] theorem Device.cadenceTold_profiles (c : Chan) (before after : Tracker) (r : CadenceReason) (d : Device) :
    (d.cadenceTold c before after r).profiles = d.profiles := by
  unfold Device.cadenceTold
  split
  · rfl
  · exact Device.profiles_of_shell (Device.raise_shell ..)
@[simp] theorem Device.endsPending_chan (d : Device) (k : OpName) (c : Chan) (p : Option FlushDone) (r : OpResult)
    (u : Device) (c' : Chan) : (d.endsPending k c p r u).chan c' = u.chan c' := by
  unfold Device.endsPending
  split <;> simp
@[simp] theorem Device.endsPending_profiles (d : Device) (k : OpName) (c : Chan) (p : Option FlushDone) (r : OpResult)
    (u : Device) : (d.endsPending k c p r u).profiles = u.profiles := by
  unfold Device.endsPending
  split
  · exact Device.profiles_of_shell (Device.settleOp_shell ..)
  · rfl

/-! ## The tracker (R82 to R85, R87) -/

/-- A tracker takes a new value, and CADENCE is raised when its state's name changes. -/
theorem Device.setTracker_eq (c : Chan) (t : Tracker) (r : CadenceReason) (d : Device) :
    d.setTracker c t r = (d.setChan c { d.chan c with tracker := t }).cadenceTold c (d.chan c).tracker t r := rfl

/-- A tracker told of a change of mode. -/
theorem Device.tellMode_eq (c : Chan) (before after : Option Context) (phase : Option ForcedPhase) (d : Device) :
    d.tellMode c before after phase =
      (d.setChan c { d.chan c with tracker := (d.chan c).tracker.told before after phase }).cadenceTold c
        (d.chan c).tracker ((d.chan c).tracker.told before after phase) .forced := by
  have h : (d.setChan c { d.chan c with tracker := (d.chan c).tracker }).cadenceTold c (d.chan c).tracker
      (d.chan c).tracker .forced = d := (Device.cadenceTold_self ..).trans (d.setChan_chan_self c)
  unfold Device.tellMode Tracker.told
  cases before with
  | none => exact h.symm
  | some b =>
    cases after with
    | none => exact h.symm
    | some a =>
      dsimp only
      split
      · exact h.symm
      · rfl

/-! ## The settling of what is pending (R34, R49, R104, R105, R155) -/

/-- What is pending of a kind after operations of another kind have been settled. -/
theorem Device.pendingOp_endsPending {d u : Device} {k k' : OpName} {c : Chan} (h : (d.ops.map (·.tag)).Nodup)
    (hu : (u.ops.map (·.tag)).Sublist (d.ops.map (·.tag))) (hk : k' ≠ k)
    (hp : u.pendingOp k c = d.pendingOp k c) (p : Option FlushDone) (r : OpResult) :
    (d.endsPending k c p r u).pendingOp k' c = u.pendingOp k' c := by
  unfold Device.endsPending
  cases ho : d.pendingOp k c with
  | none => rfl
  | some o =>
    rw [ho] at hp
    rw [Device.pendingOp_eq_head, Device.pendingOp_eq_head]
    dsimp only
    rw [Device.pendingOps_settleOp_of_ne (Device.OpsDistinct.kind_ne (hu.nodup h) hp hk)]

theorem Device.endsPending_tags (d : Device) (k : OpName) (c : Chan) (p : Option FlushDone) (r : OpResult) (u : Device) :
    ((d.endsPending k c p r u).ops.map (·.tag)).Sublist (u.ops.map (·.tag)) := by
  unfold Device.endsPending
  split
  · exact Device.settleOp_tags_sub ..
  · exact .refl _

/-- Which operation is meant by `endsPending` depends on what is pending alone. -/
theorem Device.endsPending_congr {d d' : Device} {k : OpName} {c : Chan} (h : d'.pendingOp k c = d.pendingOp k c)
    (p : Option FlushDone) (r : OpResult) (u : Device) : d'.endsPending k c p r u = d.endsPending k c p r u := by
  rw [Device.endsPending, Device.endsPending, h]

/-- A pending commit is swapped in, and its operation ends with the number of entries. -/
theorem Device.settleCommit_eq (c : Chan) (d : Device) :
    d.settleCommit c = d.endsPending .commit c none (.committed (d.chan c).reader.staged.entries.length)
      (d.setChan c { d.chan c with
        reader := if d.isPending .commit c then (d.chan c).reader.swap else (d.chan c).reader }) := by
  unfold Device.settleCommit Device.endsPending Device.isPending
  cases d.pendingOp .commit c with
  | none => exact (d.setChan_chan_self c).symm
  | some o => rfl

/-- A refresh off the field starts reloads the context, tells the tracker, and ends its operation. -/
theorem Device.refreshNow_eq (c : Chan) (tag : Byte) (d : Device) :
    d.refreshNow c tag =
      let ch := d.chan c
      let context := ch.context.map fun x => reloadContext d.profiles ch.settings x.requested
      let told := ch.tracker.told ch.context context none
      ((d.setChan c { ch with context := context, tracker := told }).cadenceTold c ch.tracker told .forced).settleOp
        tag c .done none .none := by
  unfold Device.refreshNow
  dsimp only
  rw [Device.tellMode_eq, Device.modChan, Device.chan_setChan_self, Device.setChan_setChan]
  rfl

theorem Device.settleRefresh_eq (c : Chan) (d : Device) :
    d.settleRefresh c =
      let ch := d.chan c
      let context :=
        if d.isPending .refresh c then ch.context.map fun x => reloadContext d.profiles ch.settings x.requested
        else ch.context
      let told := ch.tracker.told ch.context context none
      d.endsPending .refresh c none .none
        ((d.setChan c { ch with context := context, tracker := told }).cadenceTold c ch.tracker told .forced) := by
  unfold Device.settleRefresh Device.endsPending Device.isPending
  cases d.pendingOp .refresh c with
  | none =>
    simp only [Option.isSome_none, Bool.false_eq_true, if_false, Tracker.told_self, Device.cadenceTold_self]
    exact (d.setChan_chan_self c).symm
  | some o =>
    simp only [Option.isSome_some, if_true]
    exact d.refreshNow_eq c o.tag

/-- A flush performed as WINDOW leaves the tracker, and one performed as CHANNEL clears it (R84). -/
theorem Channel.flushed_tracker (ch : Channel) (asked : FlushScope) :
    (ch.flushed asked).tracker =
      if (flushWindow asked ch.tracker.cadence).isSome then ch.tracker else ch.tracker.cleared := by
  unfold Channel.flushed
  cases flushWindow asked ch.tracker.cadence <;> rfl

/-- A flush that is performed on a channel changes it, raises CADENCE when the tracker's state changes name, and ends its
operation with the scope it was performed with. -/
theorem Device.flushNow_eq (c : Chan) (asked : FlushScope) (tag : Byte) (d : Device) :
    d.flushNow c asked tag =
      (((d.setChan c ((d.chan c).flushed asked)).cadenceTold c (d.chan c).tracker
        ((d.chan c).flushed asked).tracker .flush).settleOp tag c .done (some ((d.chan c).flushScope asked)) .none) := by
  unfold Device.flushNow Channel.flushed Channel.flushScope
  cases flushWindow asked (d.chan c).tracker.cadence with
  | some r =>
    simp only [Device.cadenceTold_self]
    rfl
  | none =>
    dsimp only
    rw [Device.setTracker_eq, Device.modChan, Device.chan_setChan_self, Device.setChan_setChan]
    rfl

theorem Device.settleFlush_eq (c : Chan) (d : Device) :
    d.settleFlush c =
      match d.flushPending c with
      | some asked =>
        d.endsPending .flush c (some ((d.chan c).flushScope asked)) .none
          ((d.setChan c ((d.chan c).flushed asked)).cadenceTold c (d.chan c).tracker
            ((d.chan c).flushed asked).tracker .flush)
      | none => d := by
  unfold Device.settleFlush Device.flushPending Device.endsPending
  cases d.pendingOp .flush c with
  | none => rfl
  | some o =>
    obtain ⟨tag, kind, ts, r⟩ := o
    cases kind <;> first | rfl | exact d.flushNow_eq c _ _

/-- Leaving RUNNING settles what is pending on the channel, with the notices and replies of `Channel.settling`. -/
theorem Device.leaveRunning_eq {d : Device} (h : (d.ops.map (·.tag)).Nodup) (c : Chan) :
    d.leaveRunning c = (d.chan c).settling d c (d.setChan c ((d.chan c).settled d c)) := by
  have h1 := (d.settleCommit_tags c).nodup h
  have hr : (d.settleCommit c).pendingOp .refresh c = d.pendingOp .refresh c := by
    rw [Device.pendingOp_eq_head, Device.pendingOp_eq_head, Device.pendingOps_settleCommit h (by decide)]
  have hf : ((d.settleCommit c).settleRefresh c).pendingOp .flush c = d.pendingOp .flush c := by
    rw [Device.pendingOp_eq_head, Device.pendingOp_eq_head, Device.pendingOps_settleRefresh h1 (by decide),
      Device.pendingOps_settleCommit h (by decide)]
  have hp : ((d.settleCommit c).settleRefresh c).flushPending c = d.flushPending c := by
    rw [Device.flushPending, Device.flushPending, hf]
  have hi : (d.settleCommit c).isPending .refresh c = d.isPending .refresh c := by
    rw [Device.isPending, Device.isPending, hr]
  have hch := Device.settleRefresh_chan c (d.settleCommit c)
  rw [hi, Device.settleCommit_chan, Device.settleCommit_profiles] at hch
  rw [Device.leaveRunning, Device.settleFlush_eq, hp]
  unfold Channel.settling Channel.settled
  cases d.flushPending c with
  | none =>
    dsimp only
    rw [Device.settleRefresh_eq, Device.endsPending_congr hr, hi, Device.settleCommit_chan, Device.settleCommit_profiles,
      Device.settleCommit_eq]
    simp only [Device.endsPending_setChan, Device.setChan_setChan, Device.cadenceTold_setChan]
  | some asked =>
    dsimp only
    rw [Device.endsPending_congr hf, hch, Device.settleRefresh_eq, Device.endsPending_congr hr, hi,
      Device.settleCommit_chan, Device.settleCommit_profiles, Device.settleCommit_eq]
    simp only [Device.endsPending_setChan, Device.setChan_setChan, Device.cadenceTold_setChan, Channel.flushed_tracker,
      Channel.flushScope]

theorem Channel.settling_setChan (ch : Channel) (d : Device) (c : Chan) (u : Device) (c' : Chan) (x : Channel) :
    ch.settling d c (u.setChan c' x) = (ch.settling d c u).setChan c' x := by
  unfold Channel.settling
  cases d.flushPending c <;> simp only [Device.endsPending_setChan, Device.cadenceTold_setChan]

/-- What a channel's pending work raises and answers depends on the pending operations and the profile table alone. -/
theorem Channel.settling_congr {d d' : Device} {c : Chan} (hp : d'.profiles = d.profiles) (ho : d'.ops = d.ops)
    (ch : Channel) (u : Device) : ch.settling d' c u = ch.settling d c u := by
  have hk : ∀ k, d'.pendingOp k c = d.pendingOp k c := fun k => Device.pendingOp_congr ho k c
  have he : ∀ k p r u, d'.endsPending k c p r u = d.endsPending k c p r u := fun k p r u =>
    Device.endsPending_congr (hk k) p r u
  rw [Channel.settling, Channel.settling, Device.flushPending, Device.flushPending, Device.isPending, Device.isPending, hp,
    hk, hk]
  simp only [he]

@[simp] theorem Device.logRecords_profiles (rs : List DropRecord) (d : Device) :
    (rs.foldl Device.logRecord d).profiles = d.profiles := by
  induction rs generalizing d with
  | nil => rfl
  | cons r rs ih => exact (ih _).trans (Device.profiles_of_shell (d.logRecord_shell r))

@[simp] theorem Device.raise_profiles (src : Source) (detail : Detail) (d : Device) :
    (d.raise src detail).profiles = d.profiles := Device.profiles_of_shell (Device.raise_shell ..)

/-! ## Leaving the intake (R1, R16, R58, R60) -/

/-- The field in intake is let go: its open records close into the log, and it leaves the ring. -/
theorem Device.dropField_eq (c : Chan) (d : Device) :
    d.dropField c = ((d.chan c).intake.openRecords.foldl Device.logRecord d).setChan c
      { d.chan c with intake := { (d.chan c).intake with field := none, ring := (d.chan c).intake.keptRing } } := by
  have hch := d.dropField_chan c
  unfold Device.dropField Intake.openRecords
  unfold Device.dropField at hch
  cases h : (d.chan c).intake.field with
  | none =>
    rw [h] at hch
    rw [← hch]
    exact (d.setChan_chan_self c).symm
  | some f =>
    rw [h] at hch
    rw [← hch]
    simp only [Device.modChan, Device.chan_setChan_self, Device.closeField, h, Device.logRecords_setChan,
      Device.setChan_setChan]
    rfl

/-- Steps 1 to 6 of R16 give the channel that `Channel.lost` says. -/
theorem Channel.lost_eq (ch : Channel) (now : Ticks) (why : LossReason) :
    let kept := { ch with intake := { ch.intake with field := none, ring := ch.intake.keptRing } }
    let rebuilt := kept.rebuildAtLoss now
    ch.lost now why.condition = { rebuilt with
      state := .holding
      intake := { rebuilt.intake with
        prevIdentity := none, discard := false, timeout := none, input := why.condition }
      tracker := ch.tracker.cleared
      sync := { rebuilt.sync with hold := 0 } } := by
  dsimp only
  rw [Tracker.cleared_eq]
  unfold Channel.lost Channel.rebuildAtLoss notBegun viewAtLoss
  dsimp only
  cases h : ch.intake.keptRing.getLast? with
  | none => rfl
  | some n =>
    by_cases hb : ch.recon.lastBegun = some n.seq
    · have e : decide (ch.recon.lastBegun ≠ some n.seq) = false := by simp [hb]
      simp only [Option.map_some, Option.filter, e]
      rfl
    · have e : decide (ch.recon.lastBegun ≠ some n.seq) = true := by simp [hb]
      simp only [Option.map_some, Option.filter, e, Reconstructor.begin, List.isEmpty_iff]
      rfl

/-- A loss: the records of the field in intake, CADENCE when the cleared tracker's state has another name, INPUT, and the
settling of what was pending (R16, R85, R155). -/
theorem Device.declareLoss_eq {d : Device} (h : (d.ops.map (·.tag)).Nodup) (c : Chan) (why : LossReason) :
    d.declareLoss c why =
      let lost := (d.chan c).lost d.now why.condition
      lost.settling d c ((((((d.chan c).intake.openRecords.foldl Device.logRecord d).setChan c
        (lost.settled d c)).cadenceTold c (d.chan c).tracker lost.tracker .loss)).raise (.input c)
          (.input .holding why.reason)) := by
  have hX := Channel.lost_eq (d.chan c) d.now why
  have hT : (({ d.chan c with
      intake := { (d.chan c).intake with field := none, ring := (d.chan c).intake.keptRing } } : Channel).rebuildAtLoss
        d.now).tracker = (d.chan c).tracker := by
    unfold Channel.rebuildAtLoss
    split <;> rfl
  dsimp only at hX hT ⊢
  generalize hr : (d.chan c).intake.openRecords.foldl Device.logRecord d = e
  have ho : e.ops = d.ops := hr ▸ d.logRecords_ops _
  have hp : e.profiles = d.profiles := hr ▸ Device.logRecords_profiles _ d
  generalize hl : (d.chan c).lost d.now why.condition = lost at hX ⊢
  unfold Device.declareLoss
  dsimp only
  rw [Device.dropField_eq, hr, Device.setTracker_eq]
  simp only [Device.modChan, Device.chan_setChan_self, Device.setChan_setChan, Device.cadenceTold_setChan,
    Device.raise_setChan]
  generalize ({ d.chan c with
      intake := { (d.chan c).intake with field := none, ring := (d.chan c).intake.keptRing } } : Channel).rebuildAtLoss
        d.now = rebuilt at hX hT ⊢
  have ht : lost.tracker = (d.chan c).tracker.cleared := congrArg Channel.tracker hX
  rw [hT, ← hX, ht, Device.leaveRunning_eq (by simpa [ho] using h)]
  simp only [Device.chan_setChan_self, Device.setChan_setChan]
  rw [Channel.settling_congr (d := d) (by simp [hp]) (by simp [ho]),
    Channel.settled_congr (d := d) (by simp [hp]) fun k _ => Device.pendingOp_congr (by simp [ho]) k c]

/-! ## The field start that takes its field in (R5 to R9, R32, R43, R83, R101, R103) -/

/-- Steps 4 and 5 (R43, R24, R82): a pending refresh ends, and CADENCE follows where the mode changes the state's name. -/
theorem Device.contextStep_eq (c : Chan) (count : Option Count) (d : Device) :
    d.contextStep c count =
      let after := (d.contextStep c count).chan c
      (d.endsPending .refresh c none .none (d.setChan c after)).cadenceTold c (d.chan c).tracker after.tracker .forced := by
  dsimp only
  rw [Device.contextStep_chan]
  unfold Device.contextStep Device.endsPending Device.isPending
  dsimp only
  rw [Device.tellMode_eq]
  cases d.pendingOp .refresh c with
  | none =>
    simp only [Device.modChan, Device.chan_setChan_self, Device.setChan_setChan, Device.cadenceTold_setChan]
  | some o =>
    simp only [Device.modChan, Device.chan_setChan_self, Device.setChan_setChan, Device.cadenceTold_setChan,
      Device.settleOp_setChan]

/-- Step 6 (R7, R8, R83). -/
theorem Device.editStep_eq (c : Chan) (reason : Option EditReason) (count : Option Count) (d : Device) :
    d.editStep c reason count =
      match reason with
      | none => d
      | some r =>
        let ch := d.chan c
        ((d.setChan c { ch with
            intake := { ch.intake with ring := markStale ch.intake.ring, discard := false }
            tracker := ch.tracker.cleared }).cadenceTold c ch.tracker ch.tracker.cleared .edit).raise (.edit c)
          (.edit r (count.map (·.count))) := by
  unfold Device.editStep
  cases reason with
  | none => rfl
  | some r =>
    dsimp only
    rw [Device.setTracker_eq, Device.modChan, Device.chan_setChan_self, Device.setChan_setChan]

/-! ### The steps on a channel that is about to be changed -/

theorem Device.editStep_setChan (c : Chan) (reason : Option EditReason) (count : Option Count) (d : Device) (ch : Channel) :
    (d.setChan c ch).editStep c reason count =
      (match reason with
        | none => d
        | some r => (d.cadenceTold c ch.tracker ch.tracker.cleared .edit).raise (.edit c)
          (.edit r (count.map Count.count))).setChan c
        (if reason.isSome then { ch with
            intake := { ch.intake with ring := markStale ch.intake.ring, discard := false }
            tracker := ch.tracker.cleared } else ch) := by
  rw [Device.editStep_eq]
  cases reason with
  | none => rfl
  | some r =>
    simp only [Device.chan_setChan_self, Device.setChan_setChan, Device.cadenceTold_setChan, Device.raise_setChan]
    rfl

theorem Device.contextStep_setChan (c : Chan) (count : Option Count) (d : Device) (ch : Channel) :
    (d.setChan c ch).contextStep c count =
      let requested := requestedId ch.settings ch.reader.selection
      let after :=
        if reloads ch.context requested (d.isPending .refresh c) then some (reloadContext d.profiles ch.settings requested)
        else ch.context
      let phase := after.bind fun x => forcedPhase x.params count ch.reader.selection ch.reader.phaseMemory
      let told := ch.tracker.told ch.context after phase
      ((d.endsPending .refresh c none .none d).cadenceTold c ch.tracker told .forced).setChan c
        { ch with reader := { ch.reader with phaseMemory := phase }, context := after, tracker := told } := by
  rw [Device.contextStep_eq]
  dsimp only
  rw [Device.contextStep_chan]
  have hp : (d.setChan c ch).isPending .refresh c = d.isPending .refresh c := by
    rw [Device.isPending, Device.isPending, Device.pendingOp_congr (Device.setChan_ops d c ch)]
  have he : ∀ u, (d.setChan c ch).endsPending .refresh c none .none u = d.endsPending .refresh c none .none u := fun u =>
    Device.endsPending_congr (Device.pendingOp_congr (Device.setChan_ops d c ch) _ _) _ _ _
  have hpr : (d.setChan c ch).profiles = d.profiles := rfl
  simp only [Device.chan_setChan_self, Device.setChan_setChan, he, hp, hpr, Device.endsPending_setChan,
    Device.cadenceTold_setChan]

theorem Device.settleFlush_setChan (c : Chan) (d : Device) (ch : Channel) :
    (d.setChan c ch).settleFlush c =
      (match d.flushPending c with
        | some asked => d.endsPending .flush c (some (ch.flushScope asked)) .none
            (d.cadenceTold c ch.tracker (ch.flushed asked).tracker .flush)
        | none => d).setChan c (match d.flushPending c with
        | some asked => ch.flushed asked
        | none => ch) := by
  have hp : (d.setChan c ch).flushPending c = d.flushPending c := by
    rw [Device.flushPending, Device.flushPending, Device.pendingOp_congr (Device.setChan_ops d c ch)]
  have he : ∀ p u, (d.setChan c ch).endsPending .flush c p .none u = d.endsPending .flush c p .none u := fun p u =>
    Device.endsPending_congr (Device.pendingOp_congr (Device.setChan_ops d c ch) _ _) _ _ _
  rw [Device.settleFlush_eq, hp]
  cases d.flushPending c with
  | none => rfl
  | some asked =>
    simp only [Device.chan_setChan_self, Device.setChan_setChan, he, Device.endsPending_setChan,
      Device.cadenceTold_setChan]

theorem Device.settleCommit_setChan (c : Chan) (d : Device) (ch : Channel) :
    (d.setChan c ch).settleCommit c =
      (d.endsPending .commit c none (.committed ch.reader.staged.entries.length) d).setChan c
        { ch with reader := if d.isPending .commit c then ch.reader.swap else ch.reader } := by
  have hp : (d.setChan c ch).isPending .commit c = d.isPending .commit c := by
    rw [Device.isPending, Device.isPending, Device.pendingOp_congr (Device.setChan_ops d c ch)]
  have he : ∀ p r u, (d.setChan c ch).endsPending .commit c p r u = d.endsPending .commit c p r u := fun p r u =>
    Device.endsPending_congr (Device.pendingOp_congr (Device.setChan_ops d c ch) _ _) _ _ _
  rw [Device.settleCommit_eq, hp]
  simp only [Device.chan_setChan_self, Device.setChan_setChan, he, Device.endsPending_setChan]

/-- A field start that takes its field in (R5 to R9). -/
theorem Device.takeIn_eq {d : Device} (h : (d.ops.map (·.tag)).Nodup) (c : Chan) (label : Label) :
    d.takeIn c label =
      let ch := d.chan c
      let count := labelCount ch.settings label
      let reader := if d.isPending .commit c then ch.reader.swap else ch.reader
      let selection := ({ reader with lastCount := count } : Reader).lookup count
      let requested := requestedId ch.settings selection
      let context :=
        if reloads ch.context requested (d.isPending .refresh c) then some (reloadContext d.profiles ch.settings requested)
        else ch.context
      let phase := context.bind fun x => forcedPhase x.params count selection reader.phaseMemory
      let told := ch.tracker.told ch.context context phase
      let loaded : Channel := { ch with
        intake := ch.intake.takeRoom (d.now + ch.settings.system.lossTime)
        reader := { reader with lastCount := count, selection := selection, phaseMemory := phase }
        context := context
        tracker := told }
      let reason := editReason ch.intake.discard (jumpTest ch.reader.lastCount count)
        (decide (ch.intake.prevIdentity = some label.identity)) (planMark count reader.selection selection) ch.intake.editMark
      let edited := if reason.isSome then { loaded with
          intake := { loaded.intake with ring := markStale loaded.intake.ring, discard := false }
          tracker := told.cleared } else loaded
      let u := d.endsPending .commit c none (.committed ch.reader.staged.entries.length) d
      let u := (d.endsPending .refresh c none .none u).cadenceTold c ch.tracker told .forced
      let u := match reason with
        | none => u
        | some r => (u.cadenceTold c told told.cleared .edit).raise (.edit c) (.edit r (count.map Count.count))
      let flushed := match d.flushPending c with
        | some asked => edited.flushed asked
        | none => edited
      let u := match d.flushPending c with
        | some asked => d.endsPending .flush c (some (edited.flushScope asked)) .none
            (u.cadenceTold c edited.tracker flushed.tracker .flush)
        | none => u
      (u.setChan c (flushed.enterField ch.intake.nextSeq label.identity count)).inputStart c := by
  unfold Device.takeIn
  simp only [Device.modChan, Device.chan_setChan_self, Device.setChan_setChan]
  rw [Device.settleCommit_setChan]
  simp only [Device.chan_setChan_self, Device.setChan_setChan]
  rw [Device.contextStep_setChan]
  simp only [Device.chan_setChan_self]
  rw [Device.editStep_setChan, Device.settleFlush_setChan]
  simp only [Device.chan_setChan_self, Device.setChan_setChan]
  generalize hA : d.endsPending .commit c none (.committed (d.chan c).reader.staged.entries.length) d = A
  have hAt : (A.ops.map (·.tag)).Sublist (d.ops.map (·.tag)) := hA ▸ Device.endsPending_tags ..
  have hAr : A.pendingOp .refresh c = d.pendingOp .refresh c :=
    hA ▸ Device.pendingOp_endsPending h (.refl _) (by decide) rfl _ _
  have hAf : A.pendingOp .flush c = d.pendingOp .flush c :=
    hA ▸ Device.pendingOp_endsPending h (.refl _) (by decide) rfl _ _
  have hAp : A.profiles = d.profiles := by simp [← hA]
  have hi : A.isPending .refresh c = d.isPending .refresh c := by rw [Device.isPending, Device.isPending, hAr]
  rw [hi, hAp, Device.endsPending_congr hAr]
  generalize hB : d.endsPending .refresh c none .none A = B
  have hBf : B.pendingOp .flush c = d.pendingOp .flush c :=
    hB ▸ (Device.pendingOp_endsPending h hAt (by decide) hAr _ _).trans hAf
  have hr : (if d.isPending .commit c then
        ({ (d.chan c).reader with lastCount := labelCount (d.chan c).settings label } : Reader).swap
      else { (d.chan c).reader with lastCount := labelCount (d.chan c).settings label }) =
      { (if d.isPending .commit c then (d.chan c).reader.swap else (d.chan c).reader) with
        lastCount := labelCount (d.chan c).settings label } := by
    split <;> rfl
  rw [hr]
  generalize (if d.isPending .commit c then (d.chan c).reader.swap else (d.chan c).reader) = reader
  have hf : ∀ x : Device, x.ops = B.ops → x.flushPending c = d.flushPending c ∧
      ∀ p r u, x.endsPending .flush c p r u = d.endsPending .flush c p r u := by
    intro x hx
    have e := (Device.pendingOp_congr hx .flush c).trans hBf
    exact ⟨by rw [Device.flushPending, Device.flushPending, e], fun p r u => Device.endsPending_congr e p r u⟩
  have hred : ∀ (i : Intake) dl j p, editReason (i.takeRoom dl).discard j
      (decide ((i.takeRoom dl).prevIdentity = some label.identity)) p (i.takeRoom dl).editMark =
      editReason i.discard j (decide (i.prevIdentity = some label.identity)) p i.editMark := fun _ _ _ _ => rfl
  rw [hred]
  dsimp only
  rcases hE : editReason (d.chan c).intake.discard
      (jumpTest (d.chan c).reader.lastCount (labelCount (d.chan c).settings label))
      (decide ((d.chan c).intake.prevIdentity = some label.identity))
      (planMark (labelCount (d.chan c).settings label) reader.selection
        (({ reader with lastCount := labelCount (d.chan c).settings label } : Reader).lookup
          (labelCount (d.chan c).settings label)))
      (d.chan c).intake.editMark with _ | r
  · simp only [Option.isSome_none, Bool.false_eq_true, if_false]
    rw [(hf _ (Device.cadenceTold_ops ..)).1]
    simp only [(hf _ (Device.cadenceTold_ops ..)).2]
    cases d.flushPending c <;> rfl
  · have e := fun x y => hf (((B.cadenceTold c (d.chan c).tracker x .forced).cadenceTold c x y .edit).raise (.edit c)
      (.edit r ((labelCount (d.chan c).settings label).map Count.count))) (by simp)
    simp only [Option.isSome_some, if_true]
    rw [(e _ _).1]
    simp only [(e _ _).2]
    cases d.flushPending c <;> rfl

end Sys2Proof.Machine
end

