-- ==== Sys2Proof/WellFormed.lean ====
section
/-! DEFINITION. Which terms of `Instr` the outside can deliver: a command frame's payload holds at most 248 bytes
(R157), and UNKNOWN_KIND is a frame whose KIND is not an assigned command code (R163).  Everything else an `Instr` can
hold is a value the spec admits: its ranges stand in the types. -/

namespace Sys2Proof

/-- A payload holds 0 to 248 bytes (R157). -/
def payloadFits (payload : List Byte) : Bool := decide (payload.length ≤ 248)

/-- The terms of `Instr` that the outside can deliver. -/
def Instr.wellFormed : Instr → Bool
  | .identify _ p => payloadFits p
  | .deviceReset _ p => payloadFits p
  | .channelConfig _ p => payloadFits p
  | .channelStart _ p => payloadFits p
  | .channelStop _ p => payloadFits p
  | .channelReset _ p => payloadFits p
  | .channelStatus _ p => payloadFits p
  | .channelFreeze _ p => payloadFits p
  | .profileWrite _ p => payloadFits p
  | .profileRead _ p => payloadFits p
  | .profileErase _ p => payloadFits p
  | .planStageClear _ p => payloadFits p
  | .planStageAdd _ p => payloadFits p
  | .planCommit _ p => payloadFits p
  | .planRead _ p => payloadFits p
  | .contextRefresh _ p => payloadFits p
  | .historyFlush _ p => payloadFits p
  | .timingSelect _ p => payloadFits p
  | .droplogRead _ p => payloadFits p
  | .droplogClear _ p => payloadFits p
  | .droplogWatermark _ p => payloadFits p
  | .noticeLevel _ p => payloadFits p
  | .noticeWithdraw _ p => payloadFits p
  | .noticePoll _ p => payloadFits p
  | .cueConfig _ p => payloadFits p
  | .cueRead _ p => payloadFits p
  | .cueSet _ p => payloadFits p
  | .unknownKind k _ p => payloadFits p && !Kind.assigned.contains k
  | .fieldStart _ _ _ => true
  | .lineArrival _ _ _ => true
  | .fieldEnd _ _ => true
  | .fieldTimeoutExpiry _ _ => true
  | .reconstructionCompletion _ _ => true
  | .outputFrameStart _ _ => true
  | .houseFrameStart _ => true
  | .houseFamilyTimeout _ => true
  | .referenceLost _ _ => true
  | .priorReferenceLost _ _ => true
  | .acquisitionWindowEnd _ _ => true
  | .receivedByte _ _ => true
  | .gapTimerExpiry _ => true
  | .uplinkMessageEnd _ => true
  | .cueLineEdge _ _ _ => true
  | .powerUp _ => true
  | .supplyGood _ _ _ => true
  | .resetPinAssert _ => true
  | .resetPinRelease _ _ _ => true
  | .startingEnd _ => true
  | .powerFailure _ => true

end Sys2Proof
end

