-- ==== Sys2Proof/Laws/PerInstr.lean ====
section
/-! SUPPORT. What holds of every command and event as syntax, one lemma for each: the frame of a well-formed command fits
the link. -/

namespace Sys2Proof.Laws

/-- The frame of a well-formed command has a LEN within 2 to 250 (R157), and its KIND is an assigned code exactly when the
row is not UNKNOWN_KIND (R163). -/
def PayloadBound.Statement (i : Instr) : Prop :=
  i.wellFormed = true → ∀ f, Machine.commandFrame i = some f →
    2 ≤ f.payload.length + 2 ∧ f.payload.length + 2 ≤ 250 ∧
    (Kind.assigned.contains f.kind = true ↔ ∀ k tag p, i ≠ .unknownKind k tag p)

theorem PayloadBound.identify (tag : Byte) (p : List Byte) : PayloadBound.Statement (.identify tag p) := by
  rintro hw _ ⟨⟩
  have : p.length ≤ 248 := by simpa [Instr.wellFormed, payloadFits] using hw
  exact ⟨by simp, by simpa using this, by simp [Kind.assigned]⟩

theorem PayloadBound.deviceReset (tag : Byte) (p : List Byte) : PayloadBound.Statement (.deviceReset tag p) := by
  rintro hw _ ⟨⟩
  have : p.length ≤ 248 := by simpa [Instr.wellFormed, payloadFits] using hw
  exact ⟨by simp, by simpa using this, by simp [Kind.assigned]⟩

theorem PayloadBound.channelConfig (tag : Byte) (p : List Byte) : PayloadBound.Statement (.channelConfig tag p) := by
  rintro hw _ ⟨⟩
  have : p.length ≤ 248 := by simpa [Instr.wellFormed, payloadFits] using hw
  exact ⟨by simp, by simpa using this, by simp [Kind.assigned]⟩

theorem PayloadBound.channelStart (tag : Byte) (p : List Byte) : PayloadBound.Statement (.channelStart tag p) := by
  rintro hw _ ⟨⟩
  have : p.length ≤ 248 := by simpa [Instr.wellFormed, payloadFits] using hw
  exact ⟨by simp, by simpa using this, by simp [Kind.assigned]⟩

theorem PayloadBound.channelStop (tag : Byte) (p : List Byte) : PayloadBound.Statement (.channelStop tag p) := by
  rintro hw _ ⟨⟩
  have : p.length ≤ 248 := by simpa [Instr.wellFormed, payloadFits] using hw
  exact ⟨by simp, by simpa using this, by simp [Kind.assigned]⟩

theorem PayloadBound.channelReset (tag : Byte) (p : List Byte) : PayloadBound.Statement (.channelReset tag p) := by
  rintro hw _ ⟨⟩
  have : p.length ≤ 248 := by simpa [Instr.wellFormed, payloadFits] using hw
  exact ⟨by simp, by simpa using this, by simp [Kind.assigned]⟩

theorem PayloadBound.channelStatus (tag : Byte) (p : List Byte) : PayloadBound.Statement (.channelStatus tag p) := by
  rintro hw _ ⟨⟩
  have : p.length ≤ 248 := by simpa [Instr.wellFormed, payloadFits] using hw
  exact ⟨by simp, by simpa using this, by simp [Kind.assigned]⟩

theorem PayloadBound.channelFreeze (tag : Byte) (p : List Byte) : PayloadBound.Statement (.channelFreeze tag p) := by
  rintro hw _ ⟨⟩
  have : p.length ≤ 248 := by simpa [Instr.wellFormed, payloadFits] using hw
  exact ⟨by simp, by simpa using this, by simp [Kind.assigned]⟩

theorem PayloadBound.profileWrite (tag : Byte) (p : List Byte) : PayloadBound.Statement (.profileWrite tag p) := by
  rintro hw _ ⟨⟩
  have : p.length ≤ 248 := by simpa [Instr.wellFormed, payloadFits] using hw
  exact ⟨by simp, by simpa using this, by simp [Kind.assigned]⟩

theorem PayloadBound.profileRead (tag : Byte) (p : List Byte) : PayloadBound.Statement (.profileRead tag p) := by
  rintro hw _ ⟨⟩
  have : p.length ≤ 248 := by simpa [Instr.wellFormed, payloadFits] using hw
  exact ⟨by simp, by simpa using this, by simp [Kind.assigned]⟩

theorem PayloadBound.profileErase (tag : Byte) (p : List Byte) : PayloadBound.Statement (.profileErase tag p) := by
  rintro hw _ ⟨⟩
  have : p.length ≤ 248 := by simpa [Instr.wellFormed, payloadFits] using hw
  exact ⟨by simp, by simpa using this, by simp [Kind.assigned]⟩

theorem PayloadBound.planStageClear (tag : Byte) (p : List Byte) : PayloadBound.Statement (.planStageClear tag p) := by
  rintro hw _ ⟨⟩
  have : p.length ≤ 248 := by simpa [Instr.wellFormed, payloadFits] using hw
  exact ⟨by simp, by simpa using this, by simp [Kind.assigned]⟩

theorem PayloadBound.planStageAdd (tag : Byte) (p : List Byte) : PayloadBound.Statement (.planStageAdd tag p) := by
  rintro hw _ ⟨⟩
  have : p.length ≤ 248 := by simpa [Instr.wellFormed, payloadFits] using hw
  exact ⟨by simp, by simpa using this, by simp [Kind.assigned]⟩

theorem PayloadBound.planCommit (tag : Byte) (p : List Byte) : PayloadBound.Statement (.planCommit tag p) := by
  rintro hw _ ⟨⟩
  have : p.length ≤ 248 := by simpa [Instr.wellFormed, payloadFits] using hw
  exact ⟨by simp, by simpa using this, by simp [Kind.assigned]⟩

theorem PayloadBound.planRead (tag : Byte) (p : List Byte) : PayloadBound.Statement (.planRead tag p) := by
  rintro hw _ ⟨⟩
  have : p.length ≤ 248 := by simpa [Instr.wellFormed, payloadFits] using hw
  exact ⟨by simp, by simpa using this, by simp [Kind.assigned]⟩

theorem PayloadBound.contextRefresh (tag : Byte) (p : List Byte) : PayloadBound.Statement (.contextRefresh tag p) := by
  rintro hw _ ⟨⟩
  have : p.length ≤ 248 := by simpa [Instr.wellFormed, payloadFits] using hw
  exact ⟨by simp, by simpa using this, by simp [Kind.assigned]⟩

theorem PayloadBound.historyFlush (tag : Byte) (p : List Byte) : PayloadBound.Statement (.historyFlush tag p) := by
  rintro hw _ ⟨⟩
  have : p.length ≤ 248 := by simpa [Instr.wellFormed, payloadFits] using hw
  exact ⟨by simp, by simpa using this, by simp [Kind.assigned]⟩

theorem PayloadBound.timingSelect (tag : Byte) (p : List Byte) : PayloadBound.Statement (.timingSelect tag p) := by
  rintro hw _ ⟨⟩
  have : p.length ≤ 248 := by simpa [Instr.wellFormed, payloadFits] using hw
  exact ⟨by simp, by simpa using this, by simp [Kind.assigned]⟩

theorem PayloadBound.droplogRead (tag : Byte) (p : List Byte) : PayloadBound.Statement (.droplogRead tag p) := by
  rintro hw _ ⟨⟩
  have : p.length ≤ 248 := by simpa [Instr.wellFormed, payloadFits] using hw
  exact ⟨by simp, by simpa using this, by simp [Kind.assigned]⟩

theorem PayloadBound.droplogClear (tag : Byte) (p : List Byte) : PayloadBound.Statement (.droplogClear tag p) := by
  rintro hw _ ⟨⟩
  have : p.length ≤ 248 := by simpa [Instr.wellFormed, payloadFits] using hw
  exact ⟨by simp, by simpa using this, by simp [Kind.assigned]⟩

theorem PayloadBound.droplogWatermark (tag : Byte) (p : List Byte) : PayloadBound.Statement (.droplogWatermark tag p) := by
  rintro hw _ ⟨⟩
  have : p.length ≤ 248 := by simpa [Instr.wellFormed, payloadFits] using hw
  exact ⟨by simp, by simpa using this, by simp [Kind.assigned]⟩

theorem PayloadBound.noticeLevel (tag : Byte) (p : List Byte) : PayloadBound.Statement (.noticeLevel tag p) := by
  rintro hw _ ⟨⟩
  have : p.length ≤ 248 := by simpa [Instr.wellFormed, payloadFits] using hw
  exact ⟨by simp, by simpa using this, by simp [Kind.assigned]⟩

theorem PayloadBound.noticeWithdraw (tag : Byte) (p : List Byte) : PayloadBound.Statement (.noticeWithdraw tag p) := by
  rintro hw _ ⟨⟩
  have : p.length ≤ 248 := by simpa [Instr.wellFormed, payloadFits] using hw
  exact ⟨by simp, by simpa using this, by simp [Kind.assigned]⟩

theorem PayloadBound.noticePoll (tag : Byte) (p : List Byte) : PayloadBound.Statement (.noticePoll tag p) := by
  rintro hw _ ⟨⟩
  have : p.length ≤ 248 := by simpa [Instr.wellFormed, payloadFits] using hw
  exact ⟨by simp, by simpa using this, by simp [Kind.assigned]⟩

theorem PayloadBound.cueConfig (tag : Byte) (p : List Byte) : PayloadBound.Statement (.cueConfig tag p) := by
  rintro hw _ ⟨⟩
  have : p.length ≤ 248 := by simpa [Instr.wellFormed, payloadFits] using hw
  exact ⟨by simp, by simpa using this, by simp [Kind.assigned]⟩

theorem PayloadBound.cueRead (tag : Byte) (p : List Byte) : PayloadBound.Statement (.cueRead tag p) := by
  rintro hw _ ⟨⟩
  have : p.length ≤ 248 := by simpa [Instr.wellFormed, payloadFits] using hw
  exact ⟨by simp, by simpa using this, by simp [Kind.assigned]⟩

theorem PayloadBound.cueSet (tag : Byte) (p : List Byte) : PayloadBound.Statement (.cueSet tag p) := by
  rintro hw _ ⟨⟩
  have : p.length ≤ 248 := by simpa [Instr.wellFormed, payloadFits] using hw
  exact ⟨by simp, by simpa using this, by simp [Kind.assigned]⟩

theorem PayloadBound.unknownKind (k tag : Byte) (p : List Byte) : PayloadBound.Statement (.unknownKind k tag p) := by
  rintro hw _ ⟨⟩
  have h : p.length ≤ 248 ∧ k ∉ Kind.assigned := by simpa [Instr.wellFormed, payloadFits] using hw
  exact ⟨by simp, by simpa using h.1, by simpa using h.2⟩

theorem PayloadBound.fieldStart (t : Ticks) (c : Chan) (l : Label) :
    PayloadBound.Statement (.fieldStart t c l) := by
  rintro - _ ⟨⟩

theorem PayloadBound.lineArrival (t : Ticks) (c : Chan) (l : Line) :
    PayloadBound.Statement (.lineArrival t c l) := by
  rintro - _ ⟨⟩

theorem PayloadBound.fieldEnd (t : Ticks) (field : EndedField) :
    PayloadBound.Statement (.fieldEnd t field) := by
  rintro - _ ⟨⟩

theorem PayloadBound.fieldTimeoutExpiry (t : Ticks) (c : Chan) :
    PayloadBound.Statement (.fieldTimeoutExpiry t c) := by
  rintro - _ ⟨⟩

theorem PayloadBound.reconstructionCompletion (t : Ticks) (c : Chan) :
    PayloadBound.Statement (.reconstructionCompletion t c) := by
  rintro - _ ⟨⟩

theorem PayloadBound.outputFrameStart (t : Ticks) (c : Chan) :
    PayloadBound.Statement (.outputFrameStart t c) := by
  rintro - _ ⟨⟩

theorem PayloadBound.houseFrameStart (t : Ticks) :
    PayloadBound.Statement (.houseFrameStart t) := by
  rintro - _ ⟨⟩

theorem PayloadBound.houseFamilyTimeout (t : Ticks) :
    PayloadBound.Statement (.houseFamilyTimeout t) := by
  rintro - _ ⟨⟩

theorem PayloadBound.referenceLost (t : Ticks) (c : Chan) :
    PayloadBound.Statement (.referenceLost t c) := by
  rintro - _ ⟨⟩

theorem PayloadBound.priorReferenceLost (t : Ticks) (c : Chan) :
    PayloadBound.Statement (.priorReferenceLost t c) := by
  rintro - _ ⟨⟩

theorem PayloadBound.acquisitionWindowEnd (t : Ticks) (c : Chan) :
    PayloadBound.Statement (.acquisitionWindowEnd t c) := by
  rintro - _ ⟨⟩

theorem PayloadBound.receivedByte (t : Ticks) (b : Byte) :
    PayloadBound.Statement (.receivedByte t b) := by
  rintro - _ ⟨⟩

theorem PayloadBound.gapTimerExpiry (t : Ticks) :
    PayloadBound.Statement (.gapTimerExpiry t) := by
  rintro - _ ⟨⟩

theorem PayloadBound.uplinkMessageEnd (t : Ticks) :
    PayloadBound.Statement (.uplinkMessageEnd t) := by
  rintro - _ ⟨⟩

theorem PayloadBound.cueLineEdge (t : Ticks) (n : CueNo) (high : Bool) :
    PayloadBound.Statement (.cueLineEdge t n high) := by
  rintro - _ ⟨⟩

theorem PayloadBound.powerUp (t : Ticks) :
    PayloadBound.Statement (.powerUp t) := by
  rintro - _ ⟨⟩

theorem PayloadBound.supplyGood (t : Ticks) (s1 s0 : Bool) :
    PayloadBound.Statement (.supplyGood t s1 s0) := by
  rintro - _ ⟨⟩

theorem PayloadBound.resetPinAssert (t : Ticks) :
    PayloadBound.Statement (.resetPinAssert t) := by
  rintro - _ ⟨⟩

theorem PayloadBound.resetPinRelease (t : Ticks) (s1 s0 : Bool) :
    PayloadBound.Statement (.resetPinRelease t s1 s0) := by
  rintro - _ ⟨⟩

theorem PayloadBound.startingEnd (t : Ticks) :
    PayloadBound.Statement (.startingEnd t) := by
  rintro - _ ⟨⟩

theorem PayloadBound.powerFailure (t : Ticks) :
    PayloadBound.Statement (.powerFailure t) := by
  rintro - _ ⟨⟩

end Sys2Proof.Laws
end

