-- ==== Sys2Proof/Tests/Slice0.lean ====
section
/-! SUPPORT. Small checks of the model on the worked examples of spec/, and for every statement with hypotheses a concrete
state and operands that meet them.  Each expected value stands in the section named beside it. -/

namespace Sys2Proof.Tests

open Sys2Proof Sys2Proof.Machine

/-! ## Which terms the outside can deliver -/

theorem test_wf_payload_of_248 : Instr.wellFormed (.identify 0 (List.replicate 248 0)) = true := by
  decide +kernel
theorem test_wf_payload_of_249_refused : Instr.wellFormed (.identify 0 (List.replicate 249 0)) = false := by
  decide +kernel
theorem test_wf_unassigned_kind : Instr.wellFormed (.unknownKind 0x7F 0 []) = true := by decide
theorem test_wf_assigned_kind_refused : Instr.wellFormed (.unknownKind 0x10 0 []) = false := by decide
theorem test_wf_unknown_long_refused : Instr.wellFormed (.unknownKind 0x7F 0 (List.replicate 249 0)) = false := by
  decide +kernel

/-- The table gives no row any bits. -/
theorem test_decode_none : decodeTableWord 8 0xA5 = none := rfl

/-! ## Timecode and plans (R19 to R27, sections 2.2 and 2.10) -/

theorem test_count_df_after_skip : fieldCountOf .b525df ⟨0, 1, 0, 2, true⟩ .f1 = 3600 := by decide
theorem test_count_df_ten_minutes : fieldCountOf .b525df ⟨1, 10, 0, 0, true⟩ .f1 = 251748 := by decide
theorem test_count_df_before_ten_minutes : fieldCountOf .b525df ⟨1, 9, 59, 29, true⟩ .f2 = 251747 := by decide
theorem test_count_ndf : fieldCountOf .b525ndf ⟨10, 0, 0, 0, false⟩ .f1 = 2160000 := by decide
theorem test_count_625_last : fieldCountOf .b625 ⟨23, 59, 59, 24, false⟩ .f2 = 4319999 := by decide
theorem test_successor_at_midnight : Count.successor ⟨.b525df, 5178815⟩ = ⟨.b525df, 0⟩ := by decide
theorem test_dropped_label_invalid : timecodeValid .s525 ⟨0, 1, 0, 1, true⟩ = false := by decide
theorem test_drop_on_625_invalid : timecodeValid .s625 ⟨0, 0, 0, 0, true⟩ = false := by decide

/-- The two entries of section 2.10, as PLAN_STAGE_ADD carries them. -/
def entry0 : EntryFields := ⟨⟨0, 0, 59, 0, true⟩, ⟨0, 1, 0, 3, true⟩, 5, false⟩
def entry1 : EntryFields := ⟨⟨0, 1, 0, 4, true⟩, ⟨0, 1, 10, 0, true⟩, 6, true⟩
def plan2 : Plan := ⟨some .b525df, [entry0.convert .b525df, entry1.convert .b525df]⟩

theorem test_plan_counts :
    plan2.entries.map (fun e => (e.startCount, e.endCount)) = [(3540, 3603), (3604, 4197)] := by decide
theorem test_stage_entry_appends : stageEntry .s525 ⟨some .b525df, [entry0.convert .b525df]⟩ entry1 = .ok plan2 := by
  decide
theorem test_stage_entry_order : stageEntry .s525 plan2 entry0 = .error .order := by decide
theorem test_stutter_is_a_jump : jumpTest (some ⟨.b525df, 3605⟩) (some ⟨.b525df, 3605⟩) = true := by decide
theorem test_forced_phase_row_1 :
    forcedPhase { profile0 with mode := .force32, phaseOffset := 2 } (some ⟨.b525df, 3600⟩)
      (some ⟨3540, 3603, 0, 5, false⟩) (some (.of32 1)) = some (.of32 2) := by decide
theorem test_forced_phase_row_4 :
    forcedPhase { profile0 with mode := .force32, phaseOffset := 2 } none (some ⟨3540, 3603, 0, 5, false⟩)
      (some (.of32 4)) = some (.of32 0) := by decide

/-- R44's table, on a 525 channel. -/
theorem test_clamp_crop_tall : (clampCrop .s525 { profile0 with cropY0 := 40, cropHeight := 500 }).cropY0 = 0 := by decide
theorem test_clamp_crop_low : (clampCrop .s525 { profile0 with cropY0 := 100, cropHeight := 400 }).cropY0 = 80 := by
  decide

/-! ## Metrics, cadence and picture (R71, sections 5.7, 6.8, 7.7 and 7.8) -/

theorem test_comb_above : combValue 500 300 420 = 80 := by decide
theorem test_comb_between : combValue 350 300 420 = 0 := by decide
theorem test_comb_equal_lesser : combValue 300 300 420 = 0 := by decide
theorem test_comb_below : combValue 100 300 420 = 200 := by decide

/-- A signature of section 5.7's table, by its repeat and pair flags. -/
def sig (repeats pairs : Bool) : Signature := ⟨0, repeats, pairs, true⟩

/-- The history held after field 1010: repeats at indices 2 and 7. -/
theorem test_film32_locks_at_phase_2 :
    film32Test [sig false false, sig false true, sig true true, sig false false, sig false true, sig false false,
      sig false true, sig true true, sig false false, sig false true] = some 2 := by decide

theorem test_edge_direction : edgeDirection 30 200 190 = -1 := by decide
theorem test_spatial_estimate :
    spatialLuma (fun i => if i = 9 then 380 else if i = 10 then 400 else 420)
      (fun i => if i = 9 then 610 else if i = 10 then 600 else 410) 10 = 395 := by decide
theorem test_weight : weightOf { profile0 with motionLow := 16, motionHigh := 64 } 40 = 8 := by decide
theorem test_weight_profile0 : weightOf profile0 40 = 9 := by decide
theorem test_blend : blend 510 395 8 = 453 := by decide
theorem test_blend_profile0 : blend 510 395 9 = 445 := by decide

theorem test_src8_525_rows : (List.range 10).map (src8 480 1080) = [-2, 1, 5, 8, 12, 16, 19, 23, 26, 30] := by decide
theorem test_src8_cropped_625 : (src8 544 1080 0, src8 544 1080 1079) = (-2, 4346) := by decide
theorem test_phase_and_base : (baseIndex 720 1440 0, scalePhase 720 1440 0, baseIndex 720 1440 1439) = (-1, 6, 719) := by
  decide
theorem test_filter_vertical : filterValue (coefficients .cubic 1) 200 240 300 310 = 248 := by decide
theorem test_filter_linear : filterValue (coefficients .linear 1) 200 240 300 310 = 248 := by decide
theorem test_filter_overshoot : filterValue (coefficients .cubic 4) 0 1000 1000 0 = 1125 := by decide
theorem test_filter_undershoot : filterValue (coefficients .cubic 4) 1000 0 0 1000 = -125 := by decide
theorem test_filter_clamps : (clampInt 0 1023 1125, clampInt 0 1023 (-125)) = (1023, 0) := by decide
theorem test_filter_horizontal : filterValue (coefficients .cubic 4) 300 320 520 600 = 416 := by decide
theorem test_filter_top_edge : filterValue (coefficients .cubic 6) 600 600 600 100 = 631 := by decide

/-! ## The control link (section 10.8) -/

theorem test_frame_of_command : frameBytes 0x11 0x17 [2] = [0xA5, 0x03, 0x11, 0x17, 0x02, 0xD3] := by decide
theorem test_frame_of_reply : Reply.frame ⟨0x17, .ok, 0x11, []⟩ = [0xA5, 0x04, 0xC0, 0x17, 0x00, 0x11, 0x14] := by decide

/-! ## States for the tests -/

/-- The part past its STARTING period, with every block as reset left it. -/
def ready : State := { State.reset with dev := { Device.reset with phase := .operating } }

/-- The ready part with channel 0 changed. -/
def withChan (f : Channel → Channel) : State := { ready with dev := ready.dev.modChan 0 f }

/-- The ready part with channel 0 in a state. -/
def inState (st : ChanState) : State := withChan fun ch => { ch with state := st }

/-- An operation of a kind, pending on channel 0. -/
def pendingOn0 (k : OpKind) : Operation := ⟨7, k, [⟨0, .clear, none⟩], .none⟩

/-- A part with an operation of tag 7 pending on channel 0. -/
def withOp (s : State) (k : OpKind) : State := { s with dev := { s.dev with ops := [pendingOn0 k] } }

/-- The ready part with every channel RUNNING. -/
def allRunning : State := { ready with dev := { ready.dev with chans := .replicate 4 { Channel.reset 0 with state := .running } } }

/-- The ready part with the receiver in a state. -/
def rx (r : Receiver) (noise : Bool) : State := { ready with dev := { ready.dev with receiver := r, noiseRun := noise } }

/-- The ready part with its uplink SENDING. -/
def sending (d : Device) : State := { ready with dev := { d with uplink := .sending [] 0 } }

/-- A part with all four operation slots in flight, on channels 1 to 3. -/
def withFour (s : State) : State :=
  { s with dev := { s.dev with ops :=
    [⟨11, .stop, [⟨1, .clear, none⟩], .none⟩, ⟨12, .stop, [⟨2, .clear, none⟩], .none⟩,
      ⟨13, .stop, [⟨3, .clear, none⟩], .none⟩, ⟨14, .timing, [⟨1, .clear, none⟩], .none⟩] } }

/-- A line of black, and a history slot with no line. -/
def blackLine : Line := ⟨.replicate 720 64, .replicate 360 512, .replicate 360 512⟩
def slot0 : Slot := ⟨0, .f1, none, false, none, false, none, ⟨0, 0, profile0⟩, []⟩

/-- Channel 0 in a state with a field of n lines in intake. -/
def inField (st : ChanState) (n : Nat) (source : ConcealSource) : State := withChan fun ch =>
  { ch with
    state := st
    context := some ⟨0, 0, profile0⟩
    intake := { ch.intake with
      field := some { InField.begin source with lineCount := n }
      ring := [{ slot0 with seq := 5 }, { slot0 with lines := List.replicate n blackLine }]
      timeout := some 810000 } }

/-- A generator state on channel 0. -/
def timed (t : TimingState) : State := withChan fun ch => { ch with gen := { ch.gen with state := t, kept := some 540000 } }

/-- A commanded acquisition of HOUSE. -/
def acquiring (prior : Settled) (run : Nat) : TimingState := .acquire ⟨true, .house, prior, some 540000, run, 0, true⟩

/-- One operation alone in the table, on a channel that allows it, fits. -/
theorem withOp_fits (s : State) (k : OpKind) (h : (s.dev.chan 0).AllowsPending k.name) : (withOp s k).dev.OpsFit := by
  refine ⟨⟨by simp [withOp], by simp [withOp, pendingOn0, Operation.complete]⟩, fun n c => ⟨?_, fun hp => ?_⟩⟩
  · exact List.length_filter_le (fun o : Operation => decide (o.kind.name = n) && o.pendingOn c) [pendingOn0 k]
  · rw [Device.isPending, Device.pendingOp_eq_head] at hp
    by_cases e : (decide ((pendingOn0 k).kind.name = n) && (pendingOn0 k).pendingOn c) = true
    · obtain ⟨rfl, hc⟩ : k.name = n ∧ (pendingOn0 k).pendingOn c = true := by
        simp only [Bool.and_eq_true, decide_eq_true_eq] at e
        exact e
      obtain rfl : 0 = c := by simpa [pendingOn0, Operation.pendingOn, Target.pendingOn] using hc
      exact h
    · simp [Device.pendingOps, withOp, e] at hp

theorem ready_ready : ready.dev.Ready := ⟨rfl, rfl, by decide⟩
theorem ready_quiet : ready.dev.Quiet := ⟨by decide, rfl⟩
theorem withChan_ready (f : Channel → Channel) : (withChan f).dev.Ready := ⟨rfl, rfl, by show 0 + 0 < 8; decide⟩
theorem withFour_ready (f : Channel → Channel) : (withFour (withChan f)).dev.Ready :=
  ⟨rfl, rfl, by show 4 + 0 < 8; decide⟩
theorem withChan_quiet (f : Channel → Channel) : (withChan f).dev.Quiet := ⟨by show Phase.operating ≠ .held; decide, rfl⟩

/-! ## The machine on small states -/

theorem test_step_takes_the_front : step { ready with pending := [.identify 1 [], .cueRead 2 []] } =
    exec (.identify 1 []) { ready with pending := [.cueRead 2 []] } := rfl

/-- A word spells no command: the queue stays as it was. -/
theorem test_withFetchWord : ready.withFetchWord 8 0 = ready := rfl

theorem test_status_is_34_bytes : (ready.dev.statusBytes 0).length = 34 := by decide

theorem test_identify_text : identityBytes.take 8 = [0x52, 0x69, 0x73, 0x74, 0x61, 0x6D, 0x6F, 0x00] := by decide

/-! ## Witnesses: the hypotheses of the statements are met -/

theorem test_witness_EmptyQueueTicks : State.reset.pending = [] ∧
    ∀ k, ({ State.reset.dev with now := State.reset.dev.now + 1 } : Device).due k = false := by
  refine ⟨rfl, fun k => ?_⟩
  cases k with
  | starting => rfl
  | gap => rfl
  | uplink => rfl
  | house => rfl
  | fieldTimeout c => fin_cases c <;> rfl
  | reconstruction c => fin_cases c <;> rfl
  | outputFrame c => fin_cases c <;> rfl
  | reference c => fin_cases c <;> rfl
  | priorReference c => fin_cases c <;> rfl
  | acquisition c => fin_cases c <;> rfl

/-- The clauses of EmptyQueueTicks on a timer that has run out, and on each timing state. -/
theorem test_witness_EmptyQueueTicks_due :
    (({ State.reset.dev with now := 1080000 } : Device).phase ≠ .held ∧
      ({ State.reset.dev with now := 1080000 } : Device).due .starting = true ∧
      ({ State.reset.dev with now := 1079999 } : Device).due .starting = false) ∧
    (∀ t, (timed t).pending = [] ∧ (timed t).dev.phase ≠ .held ∧ ((timed t).dev.chan 0).gen.state = t) ∧
    (∀ prior run, acquiring prior run = .acquire ⟨true, .house, prior, some 540000, run, 0, true⟩) ∧
    0 + System.workTime .s625 ≤ 432000 :=
  ⟨⟨by decide, rfl, rfl⟩, fun _ => ⟨rfl, by show Phase.operating ≠ .held; decide, rfl⟩, fun _ _ => rfl, by decide⟩

/-- A commit pending on RUNNING channel 0 with the command FIFO at its bound. -/
def busy : State :=
  let s := withOp (inState .running) .commit
  { s with dev := { s.dev with fifo := List.replicate 4 ⟨0x01, 1, []⟩ } }

theorem test_witness_StepKeepsQueueBounds :
    busy.dev.FlowBound ∧ busy.dev.LogBound ∧ ∃ t, step busy = .next t :=
  ⟨⟨by decide, by decide, by decide⟩, ⟨by decide, by decide, by decide⟩, _, rfl⟩

theorem busy_chan (c : Chan) : busy.dev.chan c = { Channel.reset 0 with state := if c = 0 then .running else .off } := by
  fin_cases c <;> rfl

theorem test_witness_StepKeepsChannelBound : busy.dev.ChannelBound ∧ ∃ t, step busy = .next t := by
  refine ⟨fun c => ?_, _, rfl⟩
  rw [busy_chan]
  constructor <;> simp [Channel.reset, Intake.reset, Reconstructor.reset, Tracker.reset, Synchroniser.reset,
    Settings.reset, Config.holdMax]

/-- Section 2.10's plan committed on channel 0. -/
def planned : State := withChan fun ch => { ch with reader := { ch.reader with committed := plan2 } }

theorem empty_ordered : Plan.empty.Ordered := ⟨by decide, by decide, by decide, by decide⟩
theorem plan2_ordered : plan2.Ordered := ⟨by decide, by decide, by decide, by decide⟩

theorem test_witness_StepKeepsPlansOrdered : planned.dev.PlansOrdered ∧ ∃ t, step planned = .next t := by
  refine ⟨fun c => ?_, _, rfl⟩
  fin_cases c
  · exact ⟨plan2_ordered, empty_ordered⟩
  all_goals exact ⟨empty_ordered, empty_ordered⟩

theorem test_witness_StepKeepsTimingFits :
    (timed (acquiring (.locked .input) 8)).dev.TimingFits ∧ ∃ t, step (timed (acquiring (.locked .input) 8)) = .next t := by
  refine ⟨fun c => ?_, _, rfl⟩
  fin_cases c
  · exact ⟨le_refl 8, fun _ => rfl, by decide⟩
  all_goals trivial

theorem test_witness_StepKeepsOpsFit : busy.dev.OpsFit ∧ ∃ t, step busy = .next t := by
  refine ⟨⟨⟨by decide, by decide⟩, fun k c => ?_⟩, _, rfl⟩
  cases k <;> fin_cases c <;>
    first
    | exact ⟨by decide, fun h => absurd h (by decide)⟩
    | exact ⟨by decide, fun _ => rfl⟩

theorem mem_tabulate {α : Type} {n : Nat} {f : Nat → α} {a : α} (h : a ∈ (tabulate n f).toList) : ∃ i, a = f i := by
  have h' : a ∈ (List.range n).map f := by simpa [tabulate] using h
  obtain ⟨i, _, e⟩ := List.mem_map.1 h'
  exact ⟨i, e.symm⟩

theorem flat_legal {c : Colour} (h : c.Legal) : LegalRaster (tabulate 1080 fun _ => flatRow c) := by
  intro row hr
  obtain ⟨_, rfl⟩ := mem_tabulate hr
  refine ⟨fun v hv => ?_, fun v hv => ?_, fun v hv => ?_⟩
  · obtain ⟨_, rfl⟩ := mem_tabulate hv
    exact h.1
  · obtain ⟨_, rfl⟩ := mem_tabulate hv
    exact h.2.1
  · obtain ⟨_, rfl⟩ := mem_tabulate hv
    exact h.2.2

/-- The border at both ends of the legal range. -/
def edgeBorder : Profile := { profile0 with border := ⟨4, 1019, 512⟩ }

theorem test_witness_StepKeepsLegalOutput :
    (withChan fun ch => { ch with
      context := some ⟨0, 0, edgeBorder⟩
      sync := { ch.sync with onAir := .slate edgeBorder.border } }).dev.LegalOutput := by
  have hb : edgeBorder.border.Legal := ⟨⟨by decide, by decide⟩, ⟨by decide, by decide⟩, ⟨by decide, by decide⟩⟩
  have h0 : Colour.Legal ⟨64, 512, 512⟩ := ⟨⟨by decide, by decide⟩, ⟨by decide, by decide⟩, ⟨by decide, by decide⟩⟩
  refine ⟨?_, fun c => ?_⟩
  · intro p hp q hq
    subst hq
    simp [withChan, ready, Device.modChan, Device.setChan, State.reset, Device.reset, Vector.toList] at hp
  · fin_cases c
    · refine ⟨fun x hx => ?_, fun _ h => (nomatch h), fun _ h => (nomatch h), fun _ h => (nomatch h), flat_legal hb⟩
      obtain rfl : x = ⟨0, 0, edgeBorder⟩ := (Option.some.inj hx).symm
      exact hb
    all_goals
      exact ⟨fun _ hx => (nomatch hx), fun _ h => (nomatch h), fun _ h => (nomatch h), fun _ h => (nomatch h), flat_legal h0⟩

/-! ### The link -/

theorem test_witness_ReceiverReadsBuiltFrames :
    ready.dev.receiver = .hunt ∧ (List.replicate 248 (0 : Byte)).length ≤ 248 := ⟨rfl, by decide +kernel⟩

theorem test_witness_ReceiverByState :
    (∀ r noise, (rx r noise).dev.phase = .operating ∧ (rx r noise).dev.fifo = []) ∧
    ((rx .hunt true).dev.receiver = .hunt ∧ (rx .hunt true).dev.noiseRun = true) ∧
    ((rx .hunt false).dev.receiver = .hunt ∧ (rx .hunt false).dev.noiseRun = false ∧ (0xA4 : Byte) ≠ 0xA5) ∧
    ((rx .length false).dev.receiver = .length ∧
      (2 ≤ (2 : Byte).toNat ∧ (250 : Byte).toNat ≤ 250) ∧ (1 : Byte).toNat < 2 ∧ 250 < (251 : Byte).toNat) ∧
    (([] : List Byte).length + 1 < 2 ∧ [(0x11 : Byte)].length + 1 = 2) ∧
    ((2 + ([(0x11 : Byte), 0x17].map BitVec.toNat).sum + (0 : Byte).toNat) % 256 ≠ 0 ∧
      (3 + (0x11 : Byte).toNat + (0x17 : Byte).toNat + ([(2 : Byte)].map BitVec.toNat).sum + (0xD3 : Byte).toNat) % 256 = 0) ∧
    ((rx .length false).dev.receiver ≠ .hunt ∧
      ((rx .length false).dev.arrive 1350000).gapSince + 1350000 ≤ ((rx .length false).dev.arrive 1350000).now ∧
      ((rx .length false).dev.arrive 1349999).now < ((rx .length false).dev.arrive 1349999).gapSince + 1350000) :=
  ⟨fun _ _ => ⟨rfl, rfl⟩, ⟨rfl, rfl⟩, ⟨rfl, rfl, by decide⟩, ⟨rfl, by decide, by decide, by decide⟩, by decide, by decide,
    by decide⟩

/-- A part with the notice SLIP(0) raised at its default level, 4. -/
def raised : Device :=
  { ready.dev with notices := ready.dev.notices.set 10 ⟨4, some (.slip .repeat_ 1 0), false⟩ }

/-- The part sending, with eight replies waiting and n command frames. -/
def crowded (n : Nat) : State :=
  sending { ready.dev with replies := List.replicate 8 ⟨1, .ok, 0x11, []⟩, fifo := List.replicate n ⟨0x01, 1, []⟩ }

theorem test_witness_MessageEndChoosesNext :
    (∀ d, (sending d).dev.uplink = .sending [] 0) ∧ (sending raised).dev.phase = .operating ∧
    (sending raised).dev.fifo = [] ∧
    (10 * ([] : List Byte).length * 27000000 ≤ (0 - 0) * (sending raised).dev.lineRate ∧
      ¬ 10 * [(0xA5 : Byte)].length * 27000000 ≤ (2343 - 0) * (sending raised).dev.lineRate ∧
      10 * [(0xA5 : Byte)].length * 27000000 ≤ (2344 - 0) * (sending raised).dev.lineRate) ∧
    ({ (sending raised).dev with replies := [⟨1, .ok, 0x11, []⟩] } : Device).replies = [⟨1, .ok, 0x11, []⟩] ∧
    ((sending raised).dev.replies = [] ∧ namedSource (sending raised).dev.notices = some 10 ∧
      (sending raised).dev.notices[(10 : Fin 28)].raised = some (.slip .repeat_ 1 0)) ∧
    ((sending ready.dev).dev.replies = [] ∧ namedSource (sending ready.dev).dev.notices = none) ∧
    ((crowded 1).dev.phase = .operating ∧ (crowded 1).dev.fifo = [⟨0x01, 1, []⟩] ∧
      (crowded 1).dev.replies = ⟨1, .ok, 0x11, []⟩ :: List.replicate 7 ⟨1, .ok, 0x11, []⟩ ∧
      (crowded 1).dev.ops.length + 7 < 8) ∧
    (8 ≤ (crowded 3).dev.ops.length + (crowded 3).dev.replies.length ∧ (crowded 3).dev.fifo.length < 4 ∧
      4 ≤ (crowded 4).dev.fifo.length ∧ commandFrame (.cueRead 1 []) = some ⟨0x71, 1, []⟩) ∧
    ({ (crowded 4).dev with receiver := .check 2 [0x01, 2] } : Device).receiver = .check 2 [0x01, 2] ∧
    (2 + (0x01 : Byte).toNat + (2 : Byte).toNat + (([] : List Byte).map BitVec.toNat).sum + (0xFB : Byte).toNat) % 256 = 0 :=
  ⟨fun _ => rfl, rfl, rfl, by decide, rfl, by decide, by decide, by decide, by decide, rfl, by decide⟩

theorem test_witness_RaiseCoalesces :
    (ready.dev.notice .cueEdge).raised = none ∧ (raised.notice (.slip 0)).raised = some (.slip .repeat_ 1 0) ∧
    (({ ready.dev with notices := ready.dev.notices.set 27 ⟨0, some (.cueEdge 1 0), false⟩ } : Device).notice
      .cueEdge).raised = some (.cueEdge 1 0) := by decide

theorem test_witness_ReplyEntersQueue :
    ¬ ((sending ready.dev).dev.phase = .operating ∧ (sending ready.dev).dev.uplink = .idle) ∧
    (ready.dev.phase = .operating ∧ ready.dev.uplink = .idle ∧ ready.dev.replies = []) ∧
    (({ ready.dev with replies := [⟨1, .ok, 0x11, []⟩] } : Device).uplink = .idle) := by decide

/-- The end of an operation on channel 0: of two targets the other flag stays clear, of one none does. -/
theorem test_witness_ReplyEntersQueue_ends :
    (∀ o : Operation, ({ ready.dev with ops := [o] } : Device).ops = [] ++ o :: [] ∧
      ∀ x ∈ ([] ++ [] : List Operation), x.tag ≠ o.tag) ∧
    (∃ t ∈ ((⟨7, .refresh .all, [⟨0, .clear, none⟩, ⟨1, .clear, none⟩], .none⟩ : Operation).settle 0 .done none
      .none).targets, t.flag = .clear) ∧
    ∀ k flag, flag ≠ .clear → ∀ t ∈ ((pendingOn0 k).settle 0 flag none .none).targets, t.flag ≠ .clear := by
  refine ⟨fun _ => ⟨rfl, fun _ h => (nomatch h)⟩, by decide, fun k flag hf t ht => ?_⟩
  obtain rfl : t = ⟨0, flag, none⟩ := by simpa [pendingOn0, Operation.settle, Target.settle, Target.pendingOn] using ht
  exact hf

theorem test_witness_UnknownAndLengthRefused :
    ready.dev.Ready ∧ commandFrame (.unknownKind 0xC0 1 []) = some ⟨0xC0, 1, []⟩ ∧ (0xC0 : Byte) ∉ Kind.assigned ∧
    (commandFrame (.noticeWithdraw 1 []) = some ⟨0x61, 1, []⟩ ∧ (0x61 : Byte) ∈ Kind.assigned ∧
      (0x61 : Byte) ≠ Kind.deviceReset ∧ ¬ layoutAllows 0x61 0) :=
  ⟨ready_ready, rfl, by decide, rfl, by decide, by decide, by show ¬ (1 ≤ 0 ∧ 0 ≤ 28); decide⟩

/-- The ready part with an operation of tag 7 in flight. -/
def inFlight : State := withOp (inState .running) .commit

theorem inFlight_ready : inFlight.dev.Ready := ⟨rfl, rfl, by decide⟩

theorem test_witness_TagInUseNeverActs :
    inFlight.dev.Ready ∧ commandFrame (.channelFreeze 7 [0, 1]) = some ⟨0x15, 7, [0, 1]⟩ ∧
    (0x15 : Byte) ≠ Kind.deviceReset ∧ inFlight.dev.tagInUse 7 = true ∧
    (inFlight.dev.ownCheck ⟨0x15, 7, [4, 1]⟩ = some .range ∧ inFlight.dev.ownCheck ⟨0x15, 7, [3, 1]⟩ = none ∧
      layoutAllows 0x15 2 ∧ (0x15 : Byte) ∈ Kind.assigned) ∧
    ((withFour (inState .running)).dev.Ready ∧ (withFour (inState .running)).dev.ops.length = 4 ∧
      (withFour (inState .running)).dev.tagInUse 1 = false ∧
      (withFour (inState .running)).dev.ownCheck ⟨0x12, 1, [0]⟩ = none ∧
      (withFour (inState .running)).dev.ownCheck ⟨0x32, 1, [0]⟩ = none ∧
      (withFour (inState .running)).dev.ownCheck ⟨0x40, 1, [2, 0]⟩ = none ∧
      (withFour (inState .running)).dev.ownCheck ⟨0x41, 1, [3, 0, 0, 0, 0, 0, 2, 0xD0, 2, 0x40]⟩ = none ∧
      (withFour (inState .running)).dev.ownCheck ⟨0x42, 1, [0, 2]⟩ = none) :=
  ⟨inFlight_ready, rfl, by decide, rfl, ⟨by decide, by decide, by show 2 = 2; rfl, by decide⟩, withFour_ready _, rfl, by decide,
    by decide, by decide, by decide, by decide, by decide⟩

/-- The first check that fails decides, for a value on each side of a bound (R163, R168). -/
theorem test_ownCheck_bounds :
    ready.dev.ownCheck ⟨0x40, 1, [1, 31]⟩ = none ∧ ready.dev.ownCheck ⟨0x40, 1, [1, 32]⟩ = some .range ∧
    ready.dev.ownCheck ⟨0x52, 1, [0, 0]⟩ = some .range ∧ ready.dev.ownCheck ⟨0x52, 1, [0, 1]⟩ = none ∧
    ready.dev.ownCheck ⟨0x70, 1, [0, 1, 0, 0, 0]⟩ = some .needsInput ∧
    (inState .running).dev.ownCheck ⟨0x11, 1, [0]⟩ = some .state := by decide

/-! ### Commands -/

theorem test_witness_IdentifyAnswers :
    (ready.dev.Ready ∧ ready.dev.tagInUse 1 = false) ∧ inFlight.dev.Ready ∧ inFlight.dev.tagInUse 7 = true :=
  ⟨⟨ready_ready, rfl⟩, inFlight_ready, rfl⟩

theorem test_witness_DeviceResetCarriedOut : ready.dev.Ready := ready_ready

theorem test_witness_ChannelConfigStoresItems :
    (inState .ready).dev.Ready ∧ (inState .ready).dev.tagInUse 1 = false ∧ 31 ≤ 31 ∧ 65535 < 65536 ∧
    ((inState .ready).dev.chan 0).state = .ready ∧ ((inState .holding).dev.chan 0).state ≠ .off ∧
    ((inState .holding).dev.chan 0).state ≠ .ready ∧
    (3 < (4 : Byte).toNat ∧ 1 < (2 : Byte).toNat ∧ 31 < (32 : Byte).toNat) :=
  ⟨withChan_ready _, rfl, by decide, by decide, rfl, by decide, by decide, by decide⟩

theorem test_witness_SystemChangeReachesTiming :
    (∀ t, (timed t).dev.Ready ∧ (timed t).dev.tagInUse 1 = false ∧ ((timed t).dev.chan 0).state = .off ∧
      ((timed t).dev.chan 0).settings.system ≠ .s525 ∧ ((timed t).dev.chan 0).gen.state = t) ∧
    acquiring (.locked .input) 7 = .acquire ⟨true, .house, .locked .input, some 540000, 7, 0, true⟩ :=
  ⟨fun _ => ⟨withChan_ready _, rfl, rfl, by show System.s625 ≠ .s525; decide, rfl⟩, rfl⟩

theorem test_witness_ChannelStartBeginsRun :
    (inState .ready).dev.Ready ∧ (inState .ready).dev.tagInUse 1 = false ∧ ((inState .ready).dev.chan 0).state = .ready ∧
    ((inState .off).dev.chan 0).state ≠ .ready ∧ ((inState .ready).dev.chan 0).tracker.cadence = .seek ∧
    ((withChan fun ch => { ch with state := .ready, tracker := { ch.tracker with cadence := .forced32 3 } }).dev.chan
      0).tracker.cadence ≠ .seek ∧ 3 < (4 : Byte).toNat :=
  ⟨withChan_ready _, rfl, rfl, by decide, rfl, by decide, by decide⟩

theorem test_witness_ChannelStopBeginsStop :
    (∀ st, (inState st).dev.Ready ∧ (inState st).dev.tagInUse 1 = false ∧ (inState st).dev.ops.length < 4 ∧
      ((inState st).dev.chan 0).state = st) ∧
    (inFlight.dev.Ready ∧ inFlight.dev.tagInUse 1 = false ∧ inFlight.dev.ops.length < 4 ∧
      (inFlight.dev.chan 0).state = .running ∧ inFlight.dev.isPending .commit 0 = true ∧ inFlight.dev.OpsFit) ∧
    (∀ st, (withFour (inState st)).dev.Ready ∧ (withFour (inState st)).dev.tagInUse 1 = false ∧
      4 ≤ (withFour (inState st)).dev.ops.length ∧ ((withFour (inState st)).dev.chan 0).state = st) ∧
    3 < (4 : Byte).toNat :=
  ⟨fun _ => ⟨withChan_ready _, rfl, by show 0 < 4; decide, rfl⟩,
    ⟨inFlight_ready, by decide, by decide, rfl, by decide, withOp_fits _ _ (by show ChanState.running = .running; rfl)⟩,
    fun _ => ⟨withFour_ready _, rfl, by show 4 ≤ 4; decide, rfl⟩, by decide⟩

theorem test_witness_ChannelResetClearsAndAborts :
    (ready.dev.Ready ∧ ready.dev.tagInUse 1 = false ∧ ∀ o ∈ ready.dev.ops, o.pendingOn 0 = false) ∧
    inFlight.dev.Ready ∧ inFlight.dev.tagInUse 1 = false ∧ inFlight.dev.ops = [pendingOn0 .commit] ∧
    (pendingOn0 .commit).targets = [⟨0, .clear, none⟩] ∧ (pendingOn0 .commit).kind = .commit ∧ 3 < (4 : Byte).toNat :=
  ⟨⟨ready_ready, rfl, by decide⟩, inFlight_ready, by decide, rfl, rfl, rfl, by decide⟩

theorem test_witness_ChannelStatusReports : ready.dev.Ready ∧ ready.dev.tagInUse 1 = false ∧ 3 < (4 : Byte).toNat :=
  ⟨ready_ready, rfl, by decide⟩

theorem test_witness_ChannelFreezeSetsFlag :
    ready.dev.Ready ∧ ready.dev.tagInUse 1 = false ∧ 3 < (4 : Byte).toNat ∧ 2 ≤ (2 : Byte).toNat :=
  ⟨ready_ready, rfl, by decide, by decide⟩

theorem test_witness_ProfileWriteFillsSlot :
    ready.dev.Ready ∧ ready.dev.tagInUse 1 = false ∧ profile0.inRange = true ∧ (1 ≤ 31 ∧ 31 ≤ 31) ∧
    ({ profile0 with motionHigh := 12 } : Profile).inRange = false ∧ 31 < 32 ∧
    ((1 :: 4 :: List.replicate 25 (0 : Byte)).length = 27 ∧ 3 < byteAt (1 :: 4 :: List.replicate 25 (0 : Byte)) 1) ∧
    ((List.replicate 9 0 ++ 2 :: List.replicate 17 (0 : Byte)).length = 27 ∧
      1 < byteAt (List.replicate 9 0 ++ 2 :: List.replicate 17 (0 : Byte)) 9) ∧
    ((List.replicate 18 0 ++ 2 :: List.replicate 8 (0 : Byte)).length = 27 ∧
      1 < byteAt (List.replicate 18 0 ++ 2 :: List.replicate 8 (0 : Byte)) 18) :=
  ⟨ready_ready, rfl, by decide, by decide, by decide, by decide, by decide, by decide, by decide⟩

/-- R38's table: a value at each bound is in range, and one beyond it is not. -/
theorem test_profile_ranges :
    ({ profile0 with
        motionLow := 1022
        motionHigh := 1023
        cropX0 := 360
        cropWidth := 360
        cropY0 := 336
        cropHeight := 240
        dropRun := 255
        dropLevel := 63 } : Profile).inRange = true ∧
    ({ profile0 with cropX0 := 362, cropWidth := 358 } : Profile).inRange = false ∧
    ({ profile0 with cropY0 := 338, cropHeight := 238 } : Profile).inRange = false ∧
    ({ profile0 with dropRun := 7 } : Profile).inRange = false ∧ ({ profile0 with dropLevel := 64 } : Profile).inRange = false ∧
    ({ profile0 with mode := .force22, phaseOffset := 2 } : Profile).inRange = false := by decide

/-- The ready part with profile slots 1 and 31 filled. -/
def filled : State :=
  { ready with dev := { ready.dev with profiles := (ready.dev.profiles.set 0 (some profile0)).set 30 (some edgeBorder) } }

theorem test_witness_ProfileReadAndErase :
    filled.dev.Ready ∧ filled.dev.tagInUse 1 = false ∧ filled.dev.profiles[(30 : Fin 31)] = some edgeBorder ∧
    filled.dev.profiles[(29 : Fin 31)] = none ∧ 31 < (32 : Byte).toNat :=
  ⟨⟨rfl, rfl, by decide⟩, rfl, rfl, rfl, by decide⟩

theorem test_witness_ProfileLayoutRoundTrip : edgeBorder.inRange = true ∧ edgeBorder.border.Legal :=
  ⟨by decide, ⟨by decide, by decide⟩, ⟨by decide, by decide⟩, ⟨by decide, by decide⟩⟩

theorem test_witness_EntryChecksInOrder :
    stageEntry .s525 plan2 { entry1 with profile := 32 } = .error .range ∧
    stageEntry .s525 plan2 entry1 = .error .order ∧
    stageEntry .s525 ⟨some .b525df, List.replicate 64 (entry0.convert .b525df)⟩ entry1 = .error .full ∧
    (stageEntry .s525 .empty entry0).isOk = true := by decide +kernel

/-- An entry of one second on a 625 channel. -/
def entry625 : EntryFields := ⟨⟨0, 0, 0, 0, false⟩, ⟨0, 0, 1, 0, false⟩, 5, false⟩

theorem test_witness_PlanStageAddAppendsPrefix :
    ready.dev.Ready ∧ ready.dev.tagInUse 1 = false ∧ (1 ≤ [entry0, entry1].length ∧ [entry0, entry1].length ≤ 8) ∧
    (∀ e ∈ [entry0, entry1], e.profile < 256 ∧ e.endTc.drop = e.startTc.drop) ∧
    ready.dev.isPending .commit 0 = false ∧ inFlight.dev.isPending .commit 0 = true ∧
    ((withOp (inState .running) (.refresh .channel)).dev.isPending .commit 0 = false ∧
      (withOp (inState .running) (.refresh .channel)).dev.tagInUse 7 = true ∧
      (withOp (inState .running) (.refresh .channel)).dev.Ready) ∧
    ([entry0, entry1].head? = some entry0 ∧ stageEntry .s625 .empty entry0 = .error .range) ∧
    ([entry625].head? = some entry625 ∧ (stageEntry .s625 .empty entry625).isOk = true) ∧ 3 < (4 : Byte).toNat :=
  ⟨ready_ready, rfl, by decide, by decide, by decide, by decide, ⟨by decide, by decide, rfl, rfl, by decide⟩, by decide,
    ⟨rfl, by decide⟩, by decide⟩

theorem test_witness_PlanCommitPendsOrSwaps :
    (∀ st, (inState st).dev.Ready ∧ (inState st).dev.tagInUse 1 = false ∧ (inState st).dev.ops.length < 4 ∧
      (inState st).dev.isPending .commit 0 = false ∧ ((inState st).dev.chan 0).state = st) ∧
    (((⟨plan2, plan2, some ⟨3540, 3603, 0, 5, false⟩, none, none⟩ : Reader).swap).selection =
        some ⟨3540, 3603, 0, 5, false⟩ ∧
      ((⟨plan2, .empty, some ⟨3540, 3603, 0, 5, false⟩, none, none⟩ : Reader).swap).selection = none ∧
      (∃ e ∈ plan2.entries, e.startCount = 3540) ∧ ∀ e ∈ Plan.empty.entries, e.startCount ≠ 3540) ∧
    (inFlight.dev.Ready ∧ inFlight.dev.tagInUse 1 = false ∧ inFlight.dev.isPending .commit 0 = true) ∧
    ((withFour (inState .ready)).dev.Ready ∧ (withFour (inState .ready)).dev.tagInUse 1 = false ∧
      4 ≤ (withFour (inState .ready)).dev.ops.length) ∧ 3 < (4 : Byte).toNat :=
  ⟨fun _ => ⟨withChan_ready _, rfl, by show 0 < 4; decide, rfl, rfl⟩, by decide, ⟨inFlight_ready, by decide, by decide⟩,
    ⟨withFour_ready _, rfl, by decide⟩, by decide⟩

theorem test_witness_PlanClearAndRead :
    planned.dev.Ready ∧ planned.dev.tagInUse 1 = false ∧ planned.dev.isPending .commit 0 = false ∧
    (2 ≤ (planned.dev.chan 0).reader.committed.entries.length ∧
      (planned.dev.chan 0).reader.committed.entries.length < 3) ∧
    inFlight.dev.isPending .commit 0 = true ∧ 3 < (4 : Byte).toNat ∧ 2 ≤ (2 : Byte).toNat :=
  ⟨withChan_ready _, rfl, rfl, ⟨by decide, by decide⟩, by decide, by decide, by decide⟩

/-- Channel 0 in a state with a context of profile 1, which the table holds in another cadence mode. -/
def moded (st : ChanState) (q : Cadence) (mode : CadenceMode) : State :=
  let s := withChan fun ch =>
    { ch with state := st, context := some ⟨1, 1, profile0⟩, tracker := { ch.tracker with cadence := q } }
  { s with dev := { s.dev with profiles := s.dev.profiles.set 0 (some { profile0 with mode := mode }) } }

theorem test_witness_ContextRefreshOfChannel :
    (∀ st, (inState st).dev.Ready ∧ (inState st).dev.tagInUse 1 = false ∧ (inState st).dev.ops.length < 4 ∧
      (inState st).dev.isPending .refresh 0 = false) ∧
    (withOp (inState .running) (.refresh .channel)).dev.isPending .refresh 0 = true ∧
    ((inState .holding).dev.chan 0).state ≠ .running ∧
    (∀ q mode, (moded .holding q mode).dev.Ready ∧ ((moded .holding q mode).dev.chan 0).context = some ⟨1, 1, profile0⟩ ∧
      ((moded .holding q mode).dev.chan 0).tracker.cadence = q ∧
      reloadContext (moded .holding q mode).dev.profiles ((moded .holding q mode).dev.chan 0).settings 1 =
        ⟨1, 1, { profile0 with mode := mode }⟩) ∧
    ((withFour (inState .ready)).dev.Ready ∧ 4 ≤ (withFour (inState .ready)).dev.ops.length) ∧ 3 < (4 : Byte).toNat :=
  ⟨fun _ => ⟨withChan_ready _, rfl, by show 0 < 4; decide, rfl⟩, by decide, by decide,
    fun _ _ => ⟨⟨rfl, rfl, by show 0 + 0 < 8; decide⟩, rfl, rfl, rfl⟩, ⟨withFour_ready _, by decide⟩, by decide⟩

/-- A refresh at once that changes the mode to FORCE_32 sets FORCED_32 at phase 0 and raises CADENCE (R82, R87). -/
theorem test_refresh_changes_mode :
    ((((moded .holding .video .force32).dev.takeFrame ⟨0x40, 1, [0, 0]⟩).chan 0).tracker.cadence = .forced32 0) ∧
    ((sending (moded .holding .video .force32).dev).dev.takeFrame ⟨0x40, 1, [0, 0]⟩).notices[(18 : Fin 28)].raised =
      some (.cadence (.forced32 0) .forced) := by decide

/-- Every channel RUNNING on profile 5, and in the second a commit pending on channel 0. -/
def allOn5 : State :=
  { allRunning with
    dev := { allRunning.dev with
      chans := .replicate 4 { Channel.reset 0 with state := .running, context := some ⟨5, 0, profile0⟩ } } }
def allCommit : State := withOp allOn5 .commit

theorem test_witness_RefreshTargetsByScope :
    allOn5.dev.Ready ∧ allOn5.dev.tagInUse 1 = false ∧ allOn5.dev.ops.length < 4 ∧
    (∀ c, (allOn5.dev.chan c).state = .running) ∧ (∀ c, allOn5.dev.isPending .refresh c = false) ∧
    (∀ c, allOn5.dev.isPending .commit c = false) ∧
    ((allOn5.dev.chan 0).context.any fun x => decide (x.requested = 5) || decide (x.source = 5)) = true ∧
    ((allOn5.dev.chan 0).context.any fun x => decide (x.requested = 31) || decide (x.source = 31)) = false ∧
    allCommit.dev.isPending .commit 0 = true ∧ 31 < (32 : Byte).toNat ∧ 2 < (3 : Byte).toNat ∧
    (((inState .running).dev.chan 0).state = .running ∧ ((inState .running).dev.chan 1).state ≠ .running ∧
      ∀ c, (ready.dev.chan c).state ≠ .running) ∧
    ((withFour (inState .ready)).dev.Ready ∧ 4 ≤ (withFour (inState .ready)).dev.ops.length) ∧
    ∃ c ∈ ([0, 1, 2, 3] : List Chan), (withOp (inState .running) (.refresh .channel)).dev.isPending .refresh c = true := by
  refine ⟨⟨rfl, rfl, by decide⟩, rfl, by decide, fun c => ?_, fun c => ?_, fun c => ?_, rfl, rfl, by decide, by decide,
    by decide, ⟨rfl, by decide, by decide⟩, ⟨withFour_ready _, by decide⟩, by decide⟩
  · fin_cases c <;> rfl
  · fin_cases c <;> rfl
  · fin_cases c <;> rfl

/-- Channel 0 HOLDING in a cadence state. -/
def holdingIn (q : Cadence) : State := withChan fun ch =>
  { ch with state := .holding, tracker := { ch.tracker with cadence := q } }

theorem test_witness_FlushPendsOrPerforms :
    ((holdingIn (.film22 0)).dev.Ready ∧ (holdingIn (.film22 0)).dev.ops.length < 4 ∧
      (holdingIn (.film22 0)).dev.isPending .flush 0 = false ∧
      ((holdingIn (.film22 0)).dev.chan 0).tracker.cadence = .film22 0 ∧
      ((holdingIn .video).dev.chan 0).tracker.cadence = .video) ∧
    ((718 % 2 = 0 ∧ 2 ≠ 0 ∧ 718 + 2 ≤ 720) ∧ 574 + 2 ≤ System.frameLines .s625) ∧
    (719 % 2 ≠ 0 ∧ ¬ 720 + 2 ≤ 720 ∧ ¬ 576 + 2 ≤ System.frameLines .s625) ∧
    (withOp (inState .running) (.flush .channel)).dev.isPending .flush 0 = true ∧
    (∀ k, (allRunning.dev.chan k).state = .running ∧ allRunning.dev.isPending .flush k = false) ∧
    ((∀ k, (holdingIn .seek).dev.isPending .flush k = false) ∧ (∀ k, ((holdingIn .seek).dev.chan k).state ≠ .running) ∧
      ((inState .running).dev.chan 0).state = .running ∧ ((inState .running).dev.chan 1).state ≠ .running) ∧
    ((withFour (inState .ready)).dev.Ready ∧ 4 ≤ (withFour (inState .ready)).dev.ops.length) ∧
    ((1 : Byte).toNat = 1 ∧ 3 < (4 : Byte).toNat ∧ (0 : Byte).toNat ≠ 2 ∧ (List.replicate 8 (0 : Byte)).length = 8) := by
  refine ⟨⟨withChan_ready _, by decide, rfl, rfl, rfl⟩, by decide, by decide, by decide, fun k => ?_,
    ⟨fun k => ?_, fun k => ?_, rfl, by decide⟩, ⟨withFour_ready _, by decide⟩, by decide⟩ <;>
    fin_cases k <;> first | exact ⟨rfl, rfl⟩ | rfl | decide

/-- A flush of CHANNEL scope keeps a forced state and clears its history (R84). -/
theorem test_flush_keeps_forced :
    ((holdingIn (.forced22 1)).dev.takeFrame ⟨0x41, 1, 0 :: List.replicate 9 0⟩ |>.chan 0).tracker = ⟨.forced22 1, [], 0⟩ ∧
    ((holdingIn (.film32 4)).dev.takeFrame ⟨0x41, 1, 0 :: List.replicate 9 0⟩ |>.chan 0).tracker = ⟨.seek, [], 0⟩ := by
  decide

theorem test_witness_TimingSelectBeginsAcquisition :
    (∀ t, (timed t).dev.Ready ∧ (timed t).dev.tagInUse 1 = false ∧ (timed t).dev.ops.length < 4 ∧
      (timed t).dev.isPending .timing 0 = false ∧ ((timed t).dev.chan 0).gen.state = t) ∧ (2 : Byte).toNat ≤ 2 ∧
    (Settled.locked .house ≠ .free ∧ (∃ a, acquiring .free 3 = .acquire a)) ∧
    ((withFour (inState .ready)).dev.Ready ∧ 4 ≤ (withFour (inState .ready)).dev.ops.length) ∧
    (3 < (4 : Byte).toNat ∧ 2 < (3 : Byte).toNat) :=
  ⟨fun _ => ⟨withChan_ready _, rfl, by show 0 < 4; decide, rfl, rfl⟩, by decide, ⟨by decide, _, rfl⟩,
    ⟨withFour_ready _, by decide⟩, by decide⟩

theorem test_witness_DroplogCommandsServe :
    ready.dev.Ready ∧ ready.dev.tagInUse 1 = false ∧ (1 ≤ 255 ∧ 255 < 256) ∧ 1 ≤ 65535 ∧ 65535 < 65536 :=
  ⟨ready_ready, rfl, by decide, by decide, by decide⟩

theorem test_witness_NoticeCommandsServe :
    ready.dev.Ready ∧ ready.dev.tagInUse 1 = false ∧
    (∀ q ∈ [((1 : Byte), (7 : Byte)), (28, 0)], 1 ≤ q.1.toNat ∧ q.1.toNat ≤ 28 ∧ q.2.toNat ≤ 7) ∧
    (28 < (29 : Byte).toNat ∧ 7 < (8 : Byte).toNat) ∧ (∀ b ∈ [(1 : Byte), 28], 1 ≤ b.toNat ∧ b.toNat ≤ 28) :=
  ⟨ready_ready, rfl, by simp, by decide, by simp⟩

theorem test_witness_CueConfigReplacesRecord :
    ready.dev.Ready ∧ ready.dev.tagInUse 1 = false ∧ (7 : Fin 8) ≠ 0 ∧ 3 < 4 ∧ 7 < 8 ∧ 5 < 6 :=
  ⟨ready_ready, rfl, by decide, by decide, by decide, by decide⟩

/-- The ready part with the input of CUE0 on and its function given. -/
def cued (f : CueFunction) : State :=
  { ready with dev := { ready.dev with cues := ready.dev.cues.set 0 ⟨f, true, .low, false⟩ } }

theorem test_witness_CueReadAndSet :
    ready.dev.Ready ∧ ready.dev.tagInUse 1 = false ∧ (∀ n, (ready.dev.cue n).inputOn = false) ∧
    ((cued .general).dev.Ready ∧ ((cued .general).dev.cue 0).inputOn = true ∧ (cued .general).dev.cueOutside[(0 : Fin 8)] = true ∧
      ((cued .general).dev.cue 0).drivesLow ≠ true ∧ ((cued .general).dev.cue 0).polarity = .low) := by
  refine ⟨ready_ready, rfl, fun n => ?_, ⟨rfl, rfl, by decide⟩, rfl, rfl, by decide, rfl⟩
  fin_cases n <;> rfl

/-- A CUE_SET that drives a FALLING line with its input on low raises CUE_EDGE with that line (R178, R180). -/
theorem test_cue_set_senses_its_own_edge :
    ((sending (cued .general).dev).dev.takeFrame ⟨0x72, 1, [0x03, 0x03]⟩).notices[(27 : Fin 28)].raised =
      some (.cueEdge 1 0) := by decide

/-! ### Events -/

theorem test_witness_FieldStartNotTakenIn :
    (∀ st, (inState st).dev.Quiet ∧ ((inState st).dev.chan 0).state = st ∧
      ((inState st).dev.chan 0).intake.field = none ∧ ((inState st).dev.chan 0).settings.system = .s625) ∧
    ((inField .running 3 .none).dev.Quiet ∧ ((inField .running 3 .none).dev.chan 0).state = .running) ∧
    (inFlight.dev.Quiet ∧ (inFlight.dev.chan 0).state = .running ∧ (inFlight.dev.chan 0).intake.field = none ∧
      inFlight.dev.isPending .commit 0 = true ∧ inFlight.dev.OpsFit) :=
  ⟨fun _ => ⟨withChan_quiet _, rfl, rfl, rfl⟩, ⟨withChan_quiet _, rfl⟩, ⟨by decide, rfl⟩, rfl, rfl, by decide,
    withOp_fits _ _ (by show ChanState.running = .running; rfl)⟩

theorem test_witness_FieldStartTakesFieldIn :
    (∀ st, (inState st).dev.Quiet ∧ (inState st).dev.OpsDistinct ∧ ((inState st).dev.chan 0).state = st ∧
      ((inState st).dev.chan 0).intake.field = none ∧ ((inState st).dev.chan 0).settings.system = .s625) ∧
    ∀ k : OpKind, k = .commit ∨ k = .refresh .channel ∨ k = .flush .channel →
      (withOp (inState .running) k).dev.Quiet ∧ (withOp (inState .running) k).dev.OpsFit ∧
      ((withOp (inState .running) k).dev.chan 0).state = .running ∧
      ((withOp (inState .running) k).dev.chan 0).intake.field = none ∧
      (withOp (inState .running) k).dev.isPending k.name 0 = true := by
  refine ⟨fun _ => ⟨withChan_quiet _, ⟨by show ([] : List Byte).Nodup; decide, fun _ h => (nomatch h)⟩, rfl, rfl, rfl⟩,
    fun k hk => ⟨⟨by show Phase.operating ≠ .held; decide, rfl⟩, withOp_fits _ _ ?_, rfl, rfl, ?_⟩⟩
  · rcases hk with rfl | rfl | rfl <;> rfl
  · rcases hk with rfl | rfl | rfl <;> decide

/-- Channel 0 RUNNING with an edit mark taken in and, in the second, the discard flag set. -/
def edited (discard : Bool) : State := withChan fun ch =>
  { ch with state := .running, intake := { ch.intake with editMark := true, discard := discard, prevIdentity := some .f1 } }

/-- The first reason that holds is the one EDIT carries: FIELD_DISCARDED, then PARITY_REPEAT before CUE_MARK (R7, R8). -/
theorem test_edit_reasons_in_order :
    (let raisedBy := fun (s : State) (i : Identity) =>
      ((sending s.dev).dev.fieldStart 0 ⟨i, .s625, none, false⟩).notices[(14 : Fin 28)].raised
    raisedBy (edited true) .f1 = some (.edit .fieldDiscarded none) ∧
    raisedBy (edited false) .f1 = some (.edit .parityRepeat none) ∧
    raisedBy (edited false) .f2 = some (.edit .cueMark none)) := by decide

/-- A generator that follows its input keeps an interval within tolerance, begins an acquisition in HOLDOVER, and locks
at the eighth start in a row; a FREE one makes nothing of it (R128, R130). -/
theorem test_referred_input :
    (⟨.settled (.locked .input), some 540000, 0, some 0⟩ : Generator).referred .s625 .input (some 539000) 539000 =
      (⟨.settled (.locked .input), some 539000, 0, some 0⟩, true) ∧
    ((⟨.settled (.holdover .input), some 540000, 0, some 0⟩ : Generator).referred .s625 .input (some 540000) 540000).1.state =
      .acquire ⟨false, .input, .holdover .input, some 540000, 1, 540000, true⟩ ∧
    ((⟨.acquire ⟨true, .input, .free, none, 7, 0, true⟩, none, 0, some 0⟩ : Generator).referred .s625 .input
      (some 540000) 540000).1.state = .settled (.locked .input) ∧
    (⟨.settled .free, none, 0, none⟩ : Generator).referred .s625 .input none 9 = (⟨.settled .free, none, 0, none⟩, false) := by
  decide

/-- Channel 0 RUNNING with a field without lines in intake, concealed from the field before the last, which has one. -/
def inSecondField : State := withChan fun ch =>
  { ch with
    state := .running
    intake := { ch.intake with
      field := some (InField.begin .previousFrame)
      ring := [{ slot0 with lines := [blackLine] }, { slot0 with seq := 1, identity := .f2 }, { slot0 with seq := 2 }] } }

theorem test_witness_LineArrivalStoresLine :
    (∀ n source, (inField .running n source).dev.Quiet ∧ ((inField .running n source).dev.chan 0).state = .running ∧
      ((inField .running n source).dev.chan 0).intake.field = some { InField.begin source with lineCount := n } ∧
      ((inField .running n source).dev.chan 0).intake.ring.getLast? =
        some { slot0 with lines := List.replicate n blackLine }) ∧
    ((List.replicate 1 blackLine)[0]? = some blackLine ∧ List.replicate 1 blackLine = [blackLine]) ∧
    (inSecondField.dev.Quiet ∧ (inSecondField.dev.chan 0).intake.field = some (InField.begin .previousFrame) ∧
      secondPreviousField (inSecondField.dev.chan 0).intake.ring = some { slot0 with lines := [blackLine] } ∧
      [blackLine][0]? = some blackLine) ∧
    (System.fieldLines .s625 ≤ 288 ∧ 287 < System.fieldLines .s625) :=
  ⟨fun _ _ => ⟨withChan_quiet _, rfl, rfl, rfl⟩, ⟨rfl, rfl⟩, ⟨withChan_quiet _, rfl, rfl, rfl⟩, by decide⟩

theorem test_witness_FieldEndKeepsOrRemoves :
    (∀ st n, (inField st n .none).dev.Quiet ∧ ((inField st n .none).dev.chan 0).state = st ∧
      ((inField st n .none).dev.chan 0).intake.field = some { InField.begin .none with lineCount := n } ∧
      ((inField st n .none).dev.chan 0).intake.ring.getLast? =
        some { slot0 with lines := List.replicate n blackLine }) ∧
    (288 ≤ 286 + 2 ∧ 290 ≤ 288 + 2 ∧ 285 + 2 < 288 ∧ 288 + 2 < 291) :=
  ⟨fun _ _ => ⟨withChan_quiet _, rfl, rfl, rfl⟩, by decide⟩

theorem test_witness_TimeoutDeclaresLoss :
    (∀ k : OpKind, k = .commit ∨ k = .refresh .channel ∨ k = .flush .channel →
      (withOp (inField .running 3 .none) k).dev.Quiet ∧ ((withOp (inField .running 3 .none) k).dev.chan 0).state = .running ∧
      ((withOp (inField .running 3 .none) k).dev.chan 0).intake.timeout = some 810000 ∧
      (withOp (inField .running 3 .none) k).dev.OpsFit) ∧
    ((inField .running 3 .none).dev.isPending .commit 0 = false ∧ (inField .running 3 .none).dev.isPending .refresh 0 = false ∧
      (inField .running 3 .none).dev.isPending .flush 0 = false) ∧
    (810000 ≤ max 0 810000 ∧ max 0 809999 < 810000) ∧ ((inState .holding).dev.chan 0).state ≠ .running := by
  refine ⟨fun k hk => ⟨⟨by show Phase.operating ≠ .held; decide, rfl⟩, rfl, rfl, withOp_fits _ _ ?_⟩, ⟨rfl, rfl, rfl⟩,
    by decide, by decide⟩
  rcases hk with rfl | rfl | rfl <;> rfl

/-- A view of slot 5's field with its field n−2, and channel 0 in a state with its reconstruction at work. -/
def view5 : View := ⟨some slot0, none, { slot0 with seq := 5 }, none, some .seek⟩
def working (st : ChanState) : State := withChan fun ch =>
  { ch with state := st, recon := { ch.recon with jobs := [view5] } }

theorem test_witness_ReconstructionCompletes :
    (∀ st, (working st).dev.Quiet ∧ ((working st).dev.chan 0).recon.jobs = [view5] ∧
      ((working st).dev.chan 0).state = st) ∧ ready.dev.Quiet ∧ (ready.dev.chan 0).recon.jobs = [] :=
  ⟨fun _ => ⟨withChan_quiet _, rfl, rfl⟩, ready_quiet, rfl⟩

/-- Channel 0 in a state with the synchroniser's flags and hold count set. -/
def showing (st : ChanState) (seen awaited freeze : Bool) (hold : Nat) : State := withChan fun ch =>
  { ch with
    state := st
    sync := { ch.sync with seen := seen, awaited := awaited, freeze := freeze, hold := hold } }

theorem test_witness_OutputFrameByState :
    (∀ st a b f h, (showing st a b f h).dev.Quiet ∧ ((showing st a b f h).dev.chan 0).state = st ∧
      ((showing st a b f h).dev.chan 0).sync.queue = [] ∧ ((showing st a b f h).dev.chan 0).sync.seen = a ∧
      ((showing st a b f h).dev.chan 0).sync.awaited = b ∧ ((showing st a b f h).dev.chan 0).sync.freeze = f ∧
      ((showing st a b f h).dev.chan 0).sync.hold = h ∧ (showing st a b f h).dev.cueFreeze 0 = false) ∧
    (49 < ((showing .holding true false false 49).dev.chan 0).settings.holdLimit ∧
      ((showing .holding true false false 50).dev.chan 0).settings.holdLimit ≤ 50) ∧
    ((withOp (inState .stopping) .stop).dev.Quiet ∧ ((withOp (inState .stopping) .stop).dev.chan 0).state = .stopping ∧
      ⟨7, .stop, [⟨0, .clear, none⟩], .none⟩ ∈ (withOp (inState .stopping) .stop).dev.ops ∧
      (withOp (inState .stopping) .stop).dev.OpsFit) ∧
    (∀ st a b f h, ((showing st a b f h).dev.chan 0).gen = ⟨.settled .free, none, 0, none⟩ ∧
      0 + System.period .s625 ≤ ((showing st a b f h).dev.arrive 540000).now ∧
      ¬ 0 + System.period .s625 ≤ ((showing st a b f h).dev.arrive 539999).now) ∧
    ∀ t, ((timed t).dev.chan 0).gen = ⟨t, some 540000, 0, none⟩ :=
  ⟨fun _ _ _ _ _ => ⟨withChan_quiet _, rfl, rfl, rfl, rfl, rfl, rfl, rfl⟩, by decide,
    ⟨⟨by show Phase.operating ≠ .held; decide, rfl⟩, rfl, List.mem_singleton.mpr rfl,
      withOp_fits _ _ (by show ChanState.stopping = .stopping; rfl)⟩,
    fun _ _ _ _ _ => ⟨rfl, by show 0 + 540000 ≤ max 0 540000; decide, by show ¬ 0 + 540000 ≤ max 0 539999; decide⟩,
    fun _ => rfl⟩

/-- A generator state on channel 0 after a house frame start at reading 0. -/
def housed (t : TimingState) : State := { timed t with dev := { (timed t).dev with lastHouse := some 0 } }

theorem test_witness_HouseStartSetsFamilyAndLocks :
    (∀ t, (housed t).dev.Quiet ∧ ((housed t).dev.chan 0).gen.state = t ∧ (housed t).dev.lastHouse = some 0) ∧
    ready.dev.lastHouse = none ∧ (0 + 810000 ≤ max 0 810000 ∧ max 0 809999 < 0 + 810000) ∧
    (537300 ≤ max 0 537300 - 0 ∧ max 0 542700 - 0 ≤ 542700 ∧ 448198 ≤ max 0 448198 - 0 ∧ max 0 452702 - 0 ≤ 452702) ∧
    ((if true && true then 7 + 1 else 1) = 8 ∧ (if true && false then 7 + 1 else 1) < 8) ∧
    acquiring .free 7 = .acquire ⟨true, .house, .free, some 540000, 7, 0, true⟩ ∧ Settled.free ≠ .locked .house ∧
    (((withOp (timed (acquiring .free 7)) .timing).dev.chan 0).gen.state = acquiring .free 7 ∧
      (withOp (timed (acquiring .free 7)) .timing).dev.OpsFit ∧
      ⟨7, .timing, [⟨0, .clear, none⟩], .none⟩ ∈ (withOp (timed (acquiring .free 7)) .timing).dev.ops ∧
      (((timed (acquiring .free 7)).dev.chan 0).gen.referred .s625 .house (some 540000) 0).1.state =
        .settled (.locked .house)) ∧
    (((⟨acquiring .free 6, some 540000, 0, none⟩ : Generator).referred .s625 .house (some 540000) 0).1.state =
      acquiring .free 7) :=
  ⟨fun _ => ⟨⟨by show Phase.operating ≠ .held; decide, rfl⟩, rfl, rfl⟩, rfl, by decide, by decide, by decide, rfl,
    by decide, ⟨rfl, withOp_fits _ _ (by show true = true; rfl), List.mem_singleton.mpr rfl, by decide⟩, by decide⟩

theorem test_witness_ReferenceLossAndWindowEnd :
    (∀ t, (housed t).dev.Quiet ∧ ((housed t).dev.chan 0).gen.state = t ∧
      ((housed t).dev.arrive 810000).lastReference 0 .house = some 0 ∧
      0 + System.lossTime .s625 ≤ ((housed t).dev.arrive 810000).now ∧
      ¬ 0 + System.lossTime .s625 ≤ ((housed t).dev.arrive 809999).now) ∧
    acquiring (.locked .house) 3 = .acquire ⟨true, .house, .locked .house, some 540000, 3, 0, true⟩ ∧
    (0 + System.window .s625 ≤ 34560000 ∧ 34559999 < 0 + System.window .s625) ∧
    ((∀ src, TimingState.settled .free ≠ .settled (.locked src)) ∧ ∀ a, TimingState.settled .free ≠ .acquire a) ∧
    ((withOp (timed (acquiring .free 3)) .timing).dev.Quiet ∧ (withOp (timed (acquiring .free 3)) .timing).dev.OpsFit ∧
      ⟨7, .timing, [⟨0, .clear, none⟩], .none⟩ ∈ (withOp (timed (acquiring .free 3)) .timing).dev.ops) :=
  ⟨fun _ => ⟨⟨by show Phase.operating ≠ .held; decide, rfl⟩, rfl, rfl, by show 0 + 810000 ≤ max 0 810000; decide,
      by show ¬ 0 + 810000 ≤ max 0 809999; decide⟩, rfl, by decide, ⟨fun _ h => (nomatch h), fun _ h => (nomatch h)⟩,
    ⟨by show Phase.operating ≠ .held; decide, rfl⟩, withOp_fits _ _ (by show true = true; rfl), List.mem_singleton.mpr rfl⟩

/-- The reason of a failed acquisition is the first of ABSENT, WRONG_FAMILY and UNSTABLE that holds (R129). -/
theorem test_failure_reasons_in_order :
    failureReason .s625 .f5994 ⟨true, .house, .free, none, 0, 0, false⟩ = .absent ∧
    failureReason .s625 .f5994 ⟨true, .house, .free, none, 1, 0, true⟩ = .wrongFamily ∧
    failureReason .s625 .f5994 ⟨true, .input, .free, none, 1, 0, true⟩ = .unstable ∧
    failureReason .s625 .f50 ⟨true, .house, .free, none, 1, 0, true⟩ = .unstable := by decide

theorem test_witness_CueEdgeByFunction :
    (∀ f, (cued f).dev.fifo = [] ∧ ((cued f).dev.cue 0).function = f) ∧
    (((cued .general).dev.cue 0).inputOn && !(cued .general).dev.drives 0 &&
      decide ((cued .general).dev.cueOutside[(0 : Fin 8)] ≠ false) &&
      decide (false = ((cued .general).dev.cue 0).polarity.level)) = true ∧
    ((cued .general).dev.cue 1).inputOn = false :=
  ⟨fun _ => ⟨rfl, rfl⟩, by decide, by decide⟩

theorem test_witness_ResetHoldsAndLinkIgnores :
    State.reset.dev.phase ≠ .operating ∧ State.reset.dev.fifo = [] ∧
    commandFrame (.cueRead 1 []) = some ⟨0x71, 1, []⟩ := ⟨by decide, rfl, rfl⟩

theorem test_witness_ResetEndsAndStarts :
    (State.reset.dev.phase = .starting 0 ∧ State.reset.dev.fifo = [] ∧ State.reset.dev.supplyGood = true ∧
      State.reset.dev.pinAsserted = false) ∧ (∀ since, ready.dev.phase ≠ .starting since) ∧
    (0 + 1080000 ≤ (State.reset.dev.arrive 1080000).now ∧ (State.reset.dev.arrive 1079999).now < 0 + 1080000) ∧
    (({ State.reset.dev with phase := .held, supplyGood := false, pinAsserted := true } : Device).pinAsserted = true) :=
  ⟨⟨rfl, rfl, rfl, rfl⟩, fun _ h => (nomatch h), by decide, rfl⟩

/-! ### Functions -/

/-- An open record of line 9, samples 100 to 120, and a log of n such records. -/
def record9 : DropRecord := ⟨0, 5, none, .f1, 9, 1, ⟨100, 120⟩, .none⟩
def logOf (n : Nat) (overflow : Bool) : Device :=
  { ready.dev with dropLog := List.replicate n record9, overflow := overflow }

theorem test_witness_RunsAreMaximal :
    findRuns 40 24 200 none (List.replicate 24 0 ++ [40]) = [⟨200, 223⟩] ∧
    findRuns 40 24 200 none (List.replicate 11 0 ++ [40] ++ List.replicate 12 0 ++ [40]) = [] ∧
    (record9.lastLine + 1 = 10 ∧ record9.span.first ≤ 130 ∧ 120 ≤ record9.span.last) ∧
    ((∀ q ∈ ([] : List DropRecord), ¬ (q.lastLine + 1 = 10)) ∧ (InField.begin .none).opened < 8) ∧
    (8 ≤ ({ InField.begin .none with opened := 8 } : InField).opened) ∧
    ((logOf 63 false).dropLog.length < 256 ∧ (logOf 63 false).dropLog.length + 1 = (logOf 63 false).watermark ∧
      (logOf 64 false).dropLog.length + 1 ≠ (logOf 64 false).watermark) ∧
    ((logOf 256 false).dropLog.length = 256 ∧ (logOf 256 false).overflow = false ∧ (logOf 256 true).overflow = true) := by
  refine ⟨by decide, by decide, by decide, by simp [InField.begin], by decide, ⟨?_, ?_, ?_⟩, ?_, rfl, rfl⟩ <;>
    simp only [logOf, List.length_replicate] <;> decide

theorem test_witness_CountsFollowTheDay :
    timecodeValid .s525 ⟨23, 59, 59, 29, true⟩ = true ∧ fieldCountOf .b525df ⟨23, 59, 59, 29, true⟩ .f2 = 5178815 := by
  decide

theorem test_witness_LookupFindsTheCoveringEntry :
    plan2.Ordered ∧ plan2.base = some .b525df ∧
    (⟨plan2, .empty, none, none, none⟩ : Reader).lookup (some ⟨.b525df, 3603⟩) = some ⟨3540, 3603, 0, 5, false⟩ ∧
    (⟨plan2, .empty, none, none, none⟩ : Reader).lookup (some ⟨.b525df, 3604⟩) = some ⟨3604, 4197, 1, 6, true⟩ :=
  ⟨plan2_ordered, rfl, by decide, by decide⟩

theorem test_witness_ReloadFallsBackAndClamps :
    (reloadContext filled.dev.profiles ⟨.s525, 31, 50, true⟩ 7).source = 31 ∧
    (reloadContext ready.dev.profiles ⟨.s525, 31, 50, true⟩ 7).source = 0 := by decide

/-- The nine signatures before field 1010 of section 5.7. -/
def nine : List Signature :=
  [sig false false, sig false true, sig true true, sig false false, sig false true, sig false false, sig false true,
    sig true true, sig false false]

/-- A slot whose copy has a cadence mode, and a forced phase. -/
def slotOf (mode : CadenceMode) (phase : Option ForcedPhase) : Slot :=
  { slot0 with context := ⟨0, 0, { profile0 with mode := mode }⟩, forcedPhase := phase }

theorem test_witness_SignatureStepsTheTracker :
    ((∀ mode phase, (slotOf mode phase).context.params.mode = mode ∧ (slotOf mode phase).forcedPhase = phase) ∧
      profile0.mode = .auto) ∧
    (⟨.seek, nine, 0⟩ : Tracker).step slot0 (sig false true) = (⟨.film32 2, nine ++ [sig false true], 0⟩, .lock) ∧
    ((⟨.video, nine, 0⟩ : Tracker).step slot0 (sig false true)).1.cadence = .film32 2 ∧
    ((⟨.seek, [sig false false, sig false true, sig false false, sig false true, sig false false, sig false true,
      sig false false], 0⟩ : Tracker).step slot0 (sig false true)).1.cadence = .film22 1 ∧
    ((⟨.seek, List.replicate 5 (sig false false), 0⟩ : Tracker).step slot0 (sig false false)).1.cadence = .video ∧
    ((⟨.seek, [], 0⟩ : Tracker).step slot0 (sig false false)).1.cadence = .seek ∧
    ((⟨.film32 4, [], 0⟩ : Tracker).step slot0 (sig false false)).2 = .break_ ∧
    ((⟨.film22 0, [], 0⟩ : Tracker).step slot0 (sig false false)).2 = .break_ ∧
    ((⟨.video, [], 2⟩ : Tracker).step slot0 ⟨0, false, false, false⟩).2 = .unusable ∧
    ((⟨.seek, [], 0⟩ : Tracker).step (slotOf .force32 (some (.of32 3))) (sig false false)).1.cadence = .forced32 3 := by
  refine ⟨⟨fun _ _ => ⟨rfl, rfl⟩, rfl⟩, ?_⟩
  decide

/-- A view whose fields are all clean, in a cadence state, with field n's copy in a mode. -/
def viewIn (q : Cadence) (mode : CadenceMode) (phase : Option ForcedPhase) : View :=
  ⟨some { slot0 with seq := 3 }, some { slot0 with seq := 4, identity := .f2 }, { slotOf mode phase with seq := 5 },
    some { slot0 with seq := 6, identity := .f2, window := some ⟨⟨0, 496, 720, 64⟩, 2⟩ }, some q⟩

theorem test_witness_FrameFollowsViewAndCadence :
    ((viewIn (.film32 2) .auto none).weavePhase = some (.of32 1) ∧
      (viewIn (.film32 2) .auto none).partner.map (·.seq) = some 6 ∧
      (viewIn (.film22 0) .auto none).partner.map (·.seq) = some 4 ∧
      (viewIn (.forced32 0) .force32 (some (.of32 4))).partner.map (·.seq) = some 4 ∧
      (viewIn (.forced22 0) .force22 (some (.of22 0))).partner.map (·.seq) = some 6 ∧
      ({ viewIn (.film22 0) .auto none with prev1 := none } : View).partner = none ∧
      (viewIn (.forced32 0) .auto none).partner = none ∧ (viewIn .seek .auto none).partner = none) ∧
    ((viewIn .video .auto none).neighbours.isSome = true ∧
      ({ viewIn .video .auto none with next := none } : View).neighbours = none) ∧
    ((viewIn .video .auto none).inWindow 719 559 = true ∧ (viewIn .video .auto none).inWindow 719 560 = false) ∧
    (profile0.motionLow < profile0.motionHigh ∧ profile0.motionLow < 40 ∧ 40 < profile0.motionHigh ∧ 719 < 720) ∧
    (0 < profile0.cropWidth ∧ 0 < profile0.cropHeight) ∧
    ∀ x line, ({ viewIn .seek .auto none with next := none } : View).frameLuma .s625 x line = 0 := by
  refine ⟨by decide, by decide, by decide, by decide, by decide, fun x line => ?_⟩
  have h : ∀ l, (viewIn .seek .auto none).field.luma l = fun _ => 0 := fun _ => rfl
  unfold View.frameLuma
  split
  · exact congrFun (h _) x
  · show View.spatial .s625 _ x line = 0
    unfold View.spatial
    rw [h, h]
    simp [spatialLuma, mean2]

end Sys2Proof.Tests
end

section
/-! PROOFS. Plan entries and the plan commands: the checks of R27, PLAN_STAGE_CLEAR and PLAN_READ (R29, R30). -/

namespace Sys2Proof.Machine

/-! ## The checks on a plan entry (R26, R27) -/

section EntryChecks

variable {y : System} {plan : Plan} {e : EntryFields}

/-- The range checks of R27: both timecodes, the profile, and the base of a plan that holds entries. -/
def EntryFields.InRange (y : System) (plan : Plan) (e : EntryFields) : Prop :=
  timecodeValid y e.startTc = true ∧ timecodeValid y e.endTc = true ∧ e.profile ≤ 31 ∧
    (plan.entries = [] ∨ plan.base = some (baseOf y e.startTc.drop))

/-- The order checks of R27: the entry ends no earlier than it starts, and starts after the last entry ends. -/
def EntryFields.InOrder (y : System) (plan : Plan) (e : EntryFields) : Prop :=
  let entry := e.convert (baseOf y e.startTc.drop)
  entry.startCount ≤ entry.endCount ∧ ∀ last, plan.entries.getLast? = some last → last.endCount < entry.startCount

/-- A staged plan with an entry appended under the entry's base. -/
def Plan.append (y : System) (plan : Plan) (e : EntryFields) : Plan :=
  ⟨some (baseOf y e.startTc.drop), plan.entries ++ [e.convert (baseOf y e.startTc.drop)]⟩

theorem stageEntry_of_not_inRange (h : ¬ e.InRange y plan) : stageEntry y plan e = .error .range := by
  unfold stageEntry
  dsimp only
  split
  · rfl
  next htc =>
  split
  · rfl
  next hprofile =>
  split
  · rfl
  next hbase =>
  refine absurd ⟨?_, ?_, ?_, ?_⟩ h
  · simp_all
  · simp_all
  · omega
  · tauto

/-- Past the range checks what is left are the order checks and the check of the depth. -/
theorem stageEntry_of_inRange (h : e.InRange y plan) :
    stageEntry y plan e =
      let entry := e.convert (baseOf y e.startTc.drop)
      if entry.endCount < entry.startCount then .error .order
      else if plan.entries.getLast?.any fun last => decide (entry.startCount ≤ last.endCount) then .error .order
      else if Config.planDepth ≤ plan.entries.length then .error .full
      else .ok (plan.append y e) := by
  obtain ⟨hstart, hend, hprofile, hbase⟩ := h
  have hb : ¬ (plan.entries ≠ [] ∧ plan.base ≠ some (baseOf y e.startTc.drop)) := by tauto
  simp only [stageEntry, hstart, hend, Bool.and_self, Bool.not_true, Bool.false_eq_true, if_false, if_neg hb,
    if_neg (Nat.not_lt.mpr hprofile), Plan.append]

theorem stageEntry_of_not_inOrder (h : e.InRange y plan) (ho : ¬ e.InOrder y plan) :
    stageEntry y plan e = .error .order := by
  rw [stageEntry_of_inRange h]
  dsimp only
  split
  · rfl
  next hself =>
  split
  · rfl
  next hlast =>
  refine absurd ⟨Nat.le_of_not_lt hself, fun last hl => ?_⟩ ho
  simpa [hl] using hlast

theorem stageEntry_of_inOrder (h : e.InRange y plan) (ho : e.InOrder y plan) :
    stageEntry y plan e = if Config.planDepth ≤ plan.entries.length then .error .full else .ok (plan.append y e) := by
  obtain ⟨hself, hlast⟩ := ho
  rw [stageEntry_of_inRange h]
  dsimp only
  rw [if_neg (Nat.not_lt.mpr hself), if_neg]
  cases hl : plan.entries.getLast? with
  | none => simp
  | some last => simpa using hlast last hl

end EntryChecks

/-- Settles O31, by cases on the first check that fails: range, order, depth. -/
theorem entryChecksInOrder : Obligations.EntryChecksInOrder := by
  intro y plan e
  change (stageEntry y plan e = .error .range ↔ ¬ e.InRange y plan) ∧
    (stageEntry y plan e = .error .order ↔ e.InRange y plan ∧ ¬ e.InOrder y plan) ∧
    (stageEntry y plan e = .error .full ↔ e.InRange y plan ∧ e.InOrder y plan ∧ Config.planDepth ≤ plan.entries.length) ∧
    (∀ plan', stageEntry y plan e = .ok plan' ↔
      e.InRange y plan ∧ e.InOrder y plan ∧ plan.entries.length < Config.planDepth ∧ plan' = plan.append y e)
  by_cases hr : e.InRange y plan
  · by_cases ho : e.InOrder y plan
    · rw [stageEntry_of_inOrder hr ho]
      by_cases hf : Config.planDepth ≤ plan.entries.length
      · simp [hr, ho, hf]
      · simp [hr, ho, hf, Nat.lt_of_not_le hf, eq_comm]
    · simp [stageEntry_of_not_inOrder hr ho, hr, ho]
  · simp [stageEntry_of_not_inRange hr, hr]

/-! ## PLAN_STAGE_CLEAR (R29) -/

theorem chanOf_of_three_lt {n : Nat} (h : 3 < n) : chanOf n = none := by
  simp [chanOf, Nat.not_lt.mpr h]

/-- A command that names a channel above 3 in its one byte is refused RANGE. -/
theorem Device.withChannel_of_three_lt {b : Byte} (h : 3 < b.toNat) (d : Device) (tag kind : Byte)
    (act : Chan → Device → Device) : d.withChannel tag kind [b] act = d.answer tag kind .range [] := by
  simp [Device.withChannel, byteAt_cons_zero, chanOf_of_three_lt h]

theorem exec_planStageClear_of_ready {s : State} (h : s.dev.Ready) (tag : Byte) (p : List Byte) :
    exec (.planStageClear tag p) s = .next { s with dev := s.dev.takePlanStageClear tag p } :=
  State.onCommand_of_ready h _ _ _

section PlanStageClear

variable {d : Device} {tag : Byte} {c : Chan}

theorem Device.takePlanStageClear_of_pending (h : d.isPending .commit c = true) :
    d.takePlanStageClear tag [BitVec.ofNat 8 c.val] = d.answer tag Kind.planStageClear .busy [] := by
  rw [Device.takePlanStageClear, Device.withChannel_of_chan, if_pos h]

theorem Device.takePlanStageClear_of_free (h : d.isPending .commit c = false) (ht : d.tagInUse tag = false) :
    d.takePlanStageClear tag [BitVec.ofNat 8 c.val] =
      (d.setStaged c .empty).answer tag Kind.planStageClear .ok [] := by
  rw [Device.takePlanStageClear, Device.withChannel_of_chan, h, if_neg Bool.false_ne_true,
    Device.unlessTagged_of_free ht]

end PlanStageClear

/-! ## PLAN_READ (R30) -/

theorem exec_planRead_of_ready {s : State} (h : s.dev.Ready) (tag : Byte) (p : List Byte) :
    exec (.planRead tag p) s = .next { s with dev := s.dev.takePlanRead tag p } :=
  State.onCommand_of_ready h _ _ _

/-- The selector of PLAN_READ is read back from its byte: COMMITTED, then STAGED. -/
theorem Reader.planOf_onOff (r : Reader) (staged : Bool) :
    r.planOf (onOff staged).toNat = some (if staged then r.staged else r.committed) := by
  cases staged <;> rfl

theorem Reader.planOf_of_two_le (r : Reader) {n : Nat} (h : 2 ≤ n) : r.planOf n = none := by
  unfold Reader.planOf
  split
  · omega
  · omega
  · rfl

section PlanRead

variable {d : Device} {tag : Byte} {p : List Byte} {c : Chan} {plan : Plan}

theorem Device.takePlanRead_of_no_channel (hp : p.length = 3) (hc : chanOf (byteAt p 0) = none) :
    d.takePlanRead tag p = d.answer tag Kind.planRead .range [] := by
  simp [Device.takePlanRead, hp, hc]

theorem Device.takePlanRead_of_no_plan (hp : p.length = 3) (hc : chanOf (byteAt p 0) = some c)
    (hsel : (d.chan c).reader.planOf (byteAt p 1) = none) :
    d.takePlanRead tag p = d.answer tag Kind.planRead .range [] := by
  simp [Device.takePlanRead, hp, hc, hsel]

/-- With a channel and a plan named, what is left are the check of the index and the tag check. -/
theorem Device.takePlanRead_of_plan (hp : p.length = 3) (hc : chanOf (byteAt p 0) = some c)
    (hsel : (d.chan c).reader.planOf (byteAt p 1) = some plan) :
    d.takePlanRead tag p =
      if plan.entries.length < byteAt p 2 then d.answer tag Kind.planRead .range []
      else d.unlessTagged tag Kind.planRead fun d =>
        d.answer tag Kind.planRead .ok (planBytes plan (d.isPending .commit c) (byteAt p 2)) := by
  simp [Device.takePlanRead, hp, hc, hsel]

/-- The starting index is read back from the third byte of the payload. -/
theorem byteAt_two_byte1 {start : Nat} (h : start < 256) (b b' : Byte) :
    byteAt ([b, b'] ++ byte1 start) 2 = start :=
  byteAt_byte1 h []

theorem chanOf_byteAt_chan (c : Chan) (p : List Byte) : chanOf (byteAt (BitVec.ofNat 8 c.val :: p) 0) = some c := by
  rw [byteAt_chan, chanOf_val]

end PlanRead

/-- Settles O34, clause by clause from what the two commands do to the part. -/
theorem planClearAndRead : Obligations.PlanClearAndRead := by
  intro s tag c start hready htag hstart
  simp only [exec_planStageClear_of_ready hready, exec_planRead_of_ready hready]
  refine ⟨fun hfree => ?_, fun hbusy => ?_, fun b hb => ?_, fun staged => ?_, fun b hb => ?_, fun b b' hb => ?_⟩
  · rw [Device.takePlanStageClear_of_free hfree htag]
    rfl
  · rw [Device.takePlanStageClear_of_pending hbusy]
    rfl
  · rw [Device.takePlanStageClear, Device.withChannel_of_three_lt hb]
    rfl
  · rw [Device.takePlanRead_of_plan (p := [BitVec.ofNat 8 c.val, onOff staged] ++ byte1 start) rfl
      (chanOf_byteAt_chan c _) (Reader.planOf_onOff _ staged), byteAt_two_byte1 hstart]
    refine ⟨fun hle => ?_, fun hlt => ?_⟩
    · rw [if_neg (Nat.not_lt.mpr hle), Device.unlessTagged_of_free htag]
      rfl
    · rw [if_pos hlt]
      rfl
  · rw [Device.takePlanRead_of_no_plan (p := [BitVec.ofNat 8 c.val, b] ++ byte1 start) rfl (chanOf_byteAt_chan c _)
      (Reader.planOf_of_two_le _ hb)]
    rfl
  · rw [Device.takePlanRead_of_no_channel (p := [b, b'] ++ byte1 start) rfl (chanOf_of_three_lt hb)]
    rfl

end Sys2Proof.Machine
end

section
/-! PROOFS. The commands that read and empty a slot of the profile table: PROFILE_READ and PROFILE_ERASE (R40, R41). -/

namespace Sys2Proof.Machine

/-! ## Places of the profile table (R37) -/

theorem profileAtPlace_zero (slots : Vector (Option Profile) 31) : profileAtPlace slots 0 = some profile0 := rfl

theorem profileAtPlace_slot (slots : Vector (Option Profile) 31) (k : Fin 31) :
    profileAtPlace slots (k.val + 1) = slots[k] := by
  simp [profileAtPlace]

theorem setSlot_slot (slots : Vector (Option Profile) 31) (k : Fin 31) (p : Option Profile) :
    setSlot slots (k.val + 1) p = slots.set k p := by
  ext i hi
  simp [setSlot, Vector.getElem_setIfInBounds, Vector.getElem_set]

/-! ## PROFILE_READ (R40) -/

@[simp] theorem length_byte1 (n : Nat) : (byte1 n).length = 1 := rfl

section ProfileSlots

variable {s : State} {d : Device} {tag : Byte}

theorem exec_profileRead_of_ready (h : s.dev.Ready) (tag : Byte) (p : List Byte) :
    exec (.profileRead tag p) s = .next { s with dev := s.dev.takeProfileRead tag p } :=
  State.onCommand_of_ready h _ _ _

theorem Device.takeProfileRead_of_place {place : Nat} (hp : place ≤ 31) (ht : d.tagInUse tag = false) :
    d.takeProfileRead tag (byte1 place) =
      d.answer tag Kind.profileRead .ok (slotBytes place (profileAtPlace d.profiles place)) := by
  have hb : byteAt (byte1 place) 0 = place := byteAt_byte1 (by omega) []
  simp [Device.takeProfileRead, hb, Nat.not_lt.mpr hp, Device.unlessTagged_of_free ht]

theorem Device.takeProfileRead_of_beyond {b : Byte} (hb : 31 < b.toNat) :
    d.takeProfileRead tag [b] = d.answer tag Kind.profileRead .range [] := by
  simp [Device.takeProfileRead, byteAt_cons_zero, hb]

/-! ## PROFILE_ERASE (R41) -/

theorem exec_profileErase_of_ready (h : s.dev.Ready) (tag : Byte) (p : List Byte) :
    exec (.profileErase tag p) s = .next { s with dev := s.dev.takeProfileErase tag p } :=
  State.onCommand_of_ready h _ _ _

theorem Device.takeProfileErase_of_slot (k : Fin 31) (ht : d.tagInUse tag = false) :
    d.takeProfileErase tag (byte1 (k.val + 1)) =
      ({ d with profiles := d.profiles.set k none } : Device).answer tag Kind.profileErase .ok [] := by
  have hb : byteAt (byte1 (k.val + 1)) 0 = k.val + 1 := byteAt_byte1 (by omega) []
  have hslot : ¬ 31 < k.val + 1 := by omega
  simp [Device.takeProfileErase, hb, hslot, Device.unlessTagged_of_free ht, setSlot_slot]

theorem Device.takeProfileErase_of_no_slot {b : Byte} (hb : b = 0 ∨ 31 < b.toNat) :
    d.takeProfileErase tag [b] = d.answer tag Kind.profileErase .range [] := by
  have hn : b.toNat = 0 ∨ 31 < b.toNat := hb.imp_left (congrArg BitVec.toNat)
  simp [Device.takeProfileErase, byteAt_cons_zero, hn]

end ProfileSlots

/-- Settles O29, clause by clause from what the two commands do to the part; place 0 and the slots are one rule of the
read, told apart by what the table holds there. -/
theorem profileReadAndErase : Obligations.ProfileReadAndErase := by
  intro s tag hready htag
  simp only [exec_profileRead_of_ready hready, exec_profileErase_of_ready hready]
  refine ⟨?builtIn, fun k q hk => ?filled, fun k hk => ?empty, fun b hb => ?readRange, fun k => ?erase,
    fun b hb => ?eraseRange⟩
  case builtIn =>
    rw [show ([0] : List Byte) = byte1 0 from rfl, Device.takeProfileRead_of_place (by omega) htag, profileAtPlace_zero]
    rfl
  case filled =>
    rw [Device.takeProfileRead_of_place (by omega) htag, profileAtPlace_slot, hk]
    rfl
  case empty =>
    rw [Device.takeProfileRead_of_place (by omega) htag, profileAtPlace_slot, hk]
    rfl
  case readRange =>
    rw [Device.takeProfileRead_of_beyond hb]
    rfl
  case erase =>
    rw [Device.takeProfileErase_of_slot k htag]
    rfl
  case eraseRange =>
    rw [Device.takeProfileErase_of_no_slot hb]
    rfl

end Sys2Proof.Machine
end

section
/-! PROOFS. The commands on the dropout log: DROPLOG_READ, DROPLOG_CLEAR and DROPLOG_WATERMARK (R64 to R66). -/

namespace Sys2Proof.Machine

/-! ## DROPLOG_READ (R64) -/

theorem servedCount_le_held (asked held : Nat) : servedCount asked held ≤ held :=
  (Nat.min_le_right _ _).trans (Nat.min_le_right _ _)

/-- The two ways to say when DROPLOG_READ keeps the overflow flag (R64): by the records that are left, and by the count
of those that are served. -/
theorem overflow_and_left_eq_ite {α : Type} {log : List α} {k : Nat} (hk : k ≤ log.length) (overflow : Bool) :
    (overflow && !(log.drop k).isEmpty) = if log.length = k then false else overflow := by
  by_cases h : log.length = k
  · simp [h, List.drop_eq_nil_of_le h.le]
  · have hleft : log.drop k ≠ [] := List.drop_eq_nil_iff.not.mpr (by omega)
    simp [h, hleft]

section DropoutLog

variable {s : State} {d : Device} {tag : Byte}

theorem exec_droplogRead_of_ready (h : s.dev.Ready) (tag : Byte) (p : List Byte) :
    exec (.droplogRead tag p) s = .next { s with dev := s.dev.takeDroplogRead tag p } :=
  State.onCommand_of_ready h _ _ _

theorem Device.takeDroplogRead_of_asked {n : Nat} (hpos : 1 ≤ n) (hlt : n < 256) (ht : d.tagInUse tag = false) :
    d.takeDroplogRead tag (byte1 n) =
      ({ d with
        dropLog := d.dropLog.drop (servedCount n d.dropLog.length)
        overflow := if d.dropLog.length = servedCount n d.dropLog.length then false else d.overflow } : Device).answer
        tag Kind.droplogRead .ok
        (byte1 (servedCount n d.dropLog.length) ++ byte2 (d.dropLog.length - servedCount n d.dropLog.length) ++
          [onOff d.overflow] ++ (d.dropLog.take (servedCount n d.dropLog.length)).flatMap DropRecord.bytes) := by
  have hasked : byteAt (byte1 n) 0 = n := byteAt_byte1 hlt []
  have hn : n ≠ 0 := by omega
  simp only [Device.takeDroplogRead, length_byte1, ne_eq, not_true_eq_false, if_false, hasked, hn,
    Device.unlessTagged_of_free ht, List.length_drop, overflow_and_left_eq_ite (servedCount_le_held n _)]

theorem Device.takeDroplogRead_of_zero : d.takeDroplogRead tag [0] = d.answer tag Kind.droplogRead .range [] := by
  simp [Device.takeDroplogRead, byteAt_cons_zero]

/-! ## DROPLOG_CLEAR (R65) -/

theorem exec_droplogClear_of_ready (h : s.dev.Ready) (tag : Byte) (p : List Byte) :
    exec (.droplogClear tag p) s = .next { s with dev := s.dev.takeDroplogClear tag p } :=
  State.onCommand_of_ready h _ _ _

theorem Device.takeDroplogClear_of_free (ht : d.tagInUse tag = false) :
    d.takeDroplogClear tag [] = ({ d with dropLog := [], overflow := false } : Device).answer tag Kind.droplogClear .ok
      (byte2 d.dropLog.length ++ [onOff d.overflow]) := by
  simp [Device.takeDroplogClear, Device.unlessTagged_of_free ht]

/-! ## DROPLOG_WATERMARK (R66) -/

theorem exec_droplogWatermark_of_ready (h : s.dev.Ready) (tag : Byte) (p : List Byte) :
    exec (.droplogWatermark tag p) s = .next { s with dev := s.dev.takeDroplogWatermark tag p } :=
  State.onCommand_of_ready h _ _ _

theorem Device.takeDroplogWatermark_of_pos {v : Nat} (hpos : 1 ≤ v) (hlt : v < 65536) (ht : d.tagInUse tag = false) :
    d.takeDroplogWatermark tag (byte2 v) = ({ d with watermark := min Config.logDepth v } : Device).answer tag
      Kind.droplogWatermark .ok (byte2 (min Config.logDepth v)) := by
  have hword : wordAt (byte2 v) 0 = v := wordAt_byte2 hlt []
  have hlen : (byte2 v).length = 2 := rfl
  have hv : v ≠ 0 := by omega
  simp [Device.takeDroplogWatermark, hlen, hword, hv, Device.unlessTagged_of_free ht]

theorem Device.takeDroplogWatermark_of_zero :
    d.takeDroplogWatermark tag [0, 0] = d.answer tag Kind.droplogWatermark .range [] := by
  simp [Device.takeDroplogWatermark, wordAt, byteAt]

end DropoutLog

/-- Settles O39, clause by clause from what the three commands do to the part; the one fact between them and the
statement is that the log is left empty exactly when as many records are served as it holds. -/
theorem droplogCommandsServe : Obligations.DroplogCommandsServe := by
  intro s tag hready htag
  simp only [exec_droplogRead_of_ready hready, exec_droplogClear_of_ready hready,
    exec_droplogWatermark_of_ready hready]
  refine ⟨fun n hpos hlt => ?read, ?readNone, ?clear, fun v hpos hlt => ?watermark, ?watermarkNone⟩
  case read =>
    rw [Device.takeDroplogRead_of_asked hpos hlt htag]
    rfl
  case readNone =>
    rw [Device.takeDroplogRead_of_zero]
    rfl
  case clear =>
    rw [Device.takeDroplogClear_of_free htag]
    rfl
  case watermark =>
    rw [Device.takeDroplogWatermark_of_pos hpos hlt htag]
    rfl
  case watermarkNone =>
    rw [Device.takeDroplogWatermark_of_zero]
    rfl

end Sys2Proof.Machine
end

section
/-! PROOFS. The command that says what the part is: IDENTIFY (R166). -/

namespace Sys2Proof.Machine

/-- The result fields of R166: the texts "Ristamo" and "OFR-440", the revision code, and the sizes the statement names,
the log depth as two bytes. -/
theorem identityBytes_eq : identityBytes =
    [0x52, 0x69, 0x73, 0x74, 0x61, 0x6D, 0x6F, 0x00, 0x4F, 0x46, 0x52, 0x2D, 0x34, 0x34, 0x30, 0x00,
     0x01, 4, 31, 64, 1, 0, 4, 8] := rfl

section Identify

variable {s : State} {d : Device} {tag : Byte}

theorem exec_identify_of_ready (h : s.dev.Ready) (tag : Byte) (p : List Byte) :
    exec (.identify tag p) s = .next { s with dev := s.dev.takeIdentify tag p } :=
  State.onCommand_of_ready h _ _ _

theorem Device.takeIdentify_of_used (ht : d.tagInUse tag = true) :
    d.takeIdentify tag [] = d.answer tag Kind.identify .tagInUse [] := by
  simp [Device.takeIdentify, Device.unlessTagged_of_used ht]

theorem Device.takeIdentify_of_free (ht : d.tagInUse tag = false) :
    d.takeIdentify tag [] = d.answer tag Kind.identify .ok identityBytes := by
  simp [Device.takeIdentify, Device.unlessTagged_of_free ht]

end Identify

/-- Settles O19, by whether the tag is in use: the state of the part is asked for nothing else. -/
theorem identifyAnswers : Obligations.IdentifyAnswers := by
  intro s tag hready
  rw [exec_identify_of_ready hready]
  refine ⟨fun hused => ?tagInUse, fun hfree => ?served⟩
  case tagInUse =>
    rw [Device.takeIdentify_of_used hused]
    rfl
  case served =>
    rw [Device.takeIdentify_of_free hfree, identityBytes_eq]
    rfl

end Sys2Proof.Machine
end


section
/-! PROOFS. What work on one channel keeps, said once for each function that works on one: the bounds of the channel, its
plans in order and its output legal.  `Calm` work besides leaves the
channel's state and its generator. -/

namespace Sys2Proof.Machine

/-! ## What a change of one channel keeps -/

/-- Both plans of a channel are as R27 keeps them. -/
def Channel.PlansOrdered (ch : Channel) : Prop := ch.reader.committed.Ordered ∧ ch.reader.staged.Ordered

/-- The border colours of the profile table are legal (R38). -/
def LegalProfiles (ps : Vector (Option Profile) 31) : Prop := ∀ p ∈ ps.toList, ∀ q, p = some q → q.border.Legal

/-- The bounds of a tracker (R73). -/
def Tracker.Bound (t : Tracker) : Prop := t.history.length ≤ Config.signatureDepth ∧ t.unusable ≤ 3

/-- What a change of a channel keeps, whatever the change, while the profile table is `ps`. -/
structure Channel.Keeps (ps : Vector (Option Profile) 31) (ch ch' : Channel) : Prop where
  bound : ch.Bound → ch'.Bound
  plans : ch.PlansOrdered → ch'.PlansOrdered
  output : LegalProfiles ps → ch.LegalOutput → ch'.LegalOutput

theorem Channel.Keeps.refl (ps : Vector (Option Profile) 31) (ch : Channel) : ch.Keeps ps ch := ⟨id, id, fun _ => id⟩

theorem Channel.Keeps.trans {ps : Vector (Option Profile) 31} {a b c : Channel} (h : a.Keeps ps b) (h' : b.Keeps ps c) :
    a.Keeps ps c :=
  ⟨fun x => h'.bound (h.bound x), fun x => h'.plans (h.plans x), fun p x => h'.output p (h.output p x)⟩

/-! ## Work on one channel -/

/-- Work on channel c that keeps what every change of a channel keeps. -/
structure Evolves (c : Chan) (d d' : Device) : Prop where
  works : Works c d d'
  keeps : (d.chan c).Keeps d.profiles (d'.chan c)

/-- Work on channel c that besides leaves the channel's state and its generator, and takes no field into the ring. -/
structure Calm (c : Chan) (d d' : Device) : Prop extends Evolves c d d' where
  state : (d'.chan c).state = (d.chan c).state
  gen : (d'.chan c).gen = (d.chan c).gen
  room : (d'.chan c).intake.ring.length ≤ (d.chan c).intake.ring.length

variable {c : Chan} {d d' d'' : Device}

theorem Evolves.refl (c : Chan) (d : Device) : Evolves c d d := ⟨.refl c d, .refl _ _⟩

theorem Evolves.trans (h : Evolves c d d') (h' : Evolves c d' d'') : Evolves c d d'' :=
  ⟨h.works.trans h'.works, h.keeps.trans (h.works.keepsRest.profiles ▸ h'.keeps)⟩

theorem Evolves.setChan {ch : Channel} (h : (d.chan c).Keeps d.profiles ch) : Evolves c d (d.setChan c ch) :=
  ⟨.setChan d c ch, by simpa using h⟩

theorem Evolves.modChan {f : Channel → Channel} (h : (d.chan c).Keeps d.profiles (f (d.chan c))) :
    Evolves c d (d.modChan c f) := .setChan h

theorem Calm.refl (c : Chan) (d : Device) : Calm c d d := ⟨.refl c d, rfl, rfl, le_refl _⟩

theorem Calm.trans (h : Calm c d d') (h' : Calm c d' d'') : Calm c d d'' :=
  ⟨h.toEvolves.trans h'.toEvolves, h'.state.trans h.state, h'.gen.trans h.gen, h'.room.trans h.room⟩

/-- Work that leaves the channel. -/
theorem Calm.of_chans (hw : Works c d d') (hc : d'.chan c = d.chan c) : Calm c d d' :=
  ⟨⟨hw, hc ▸ .refl _ _⟩, by rw [hc], by rw [hc], by rw [hc]⟩

theorem Calm.raise (c : Chan) (src : Source) (detail : Detail) (d : Device) : Calm c d (d.raise src detail) :=
  .of_chans (.raise c src detail d) (by simp)

theorem Calm.lower (c : Chan) (src : Source) (d : Device) : Calm c d (d.lower src) :=
  .of_chans (.lower c src d) rfl

theorem Calm.logRecord (c : Chan) (r : DropRecord) (d : Device) : Calm c d (d.logRecord r) :=
  .of_chans (.logRecord c d r) (by simp)

theorem Calm.settleOp (c : Chan) (tag : Byte) (c' : Chan) (flag : DoneFlag) (p : Option FlushDone) (r : OpResult)
    (d : Device) : Calm c d (d.settleOp tag c' flag p r) :=
  .of_chans (.settleOp c tag c' flag p r d) (by simp)

theorem Calm.setChan {ch : Channel} (h : (d.chan c).Keeps d.profiles ch) (hs : ch.state = (d.chan c).state)
    (hg : ch.gen = (d.chan c).gen) (hr : ch.intake.ring.length ≤ (d.chan c).intake.ring.length) :
    Calm c d (d.setChan c ch) :=
  ⟨.setChan h, by simpa using hs, by simpa using hg, by simpa using hr⟩

theorem Calm.modChan {f : Channel → Channel} (h : (d.chan c).Keeps d.profiles (f (d.chan c)))
    (hs : (f (d.chan c)).state = (d.chan c).state) (hg : (f (d.chan c)).gen = (d.chan c).gen)
    (hr : (f (d.chan c)).intake.ring.length ≤ (d.chan c).intake.ring.length) : Calm c d (d.modChan c f) :=
  .setChan h hs hg hr

end Sys2Proof.Machine
end


section
/-! PROOFS. The work on one channel that leaves its state and its generator: intake of lines, the tracker, the plans, the
context, the flush, completed reconstructions and field ends. -/

namespace Sys2Proof.Machine

/-! ## Legal colours -/

theorem profile0_legal : profile0.border.Legal := by
  simp [profile0, Colour.Legal, LegalSample]

theorem profileAtPlace_legal {ps : Vector (Option Profile) 31} (h : LegalProfiles ps) {place : Nat} {q : Profile}
    (hq : profileAtPlace ps place = some q) : q.border.Legal := by
  unfold profileAtPlace at hq
  split at hq
  · obtain rfl : profile0 = q := by simpa using hq
    exact profile0_legal
  · refine h (some q) ?_ q rfl
    have := Option.join_eq_some_iff.1 hq
    exact Vector.mem_toList_iff.2 (Vector.mem_of_getElem? this)

theorem reloadContext_legal {ps : Vector (Option Profile) 31} (h : LegalProfiles ps) (s : Settings) (id : Nat) :
    (reloadContext ps s id).params.border.Legal := by
  unfold reloadContext
  split
  · rename_i hq
    have := profileAtPlace_legal h hq
    exact this
  · rename_i hq
    have := profileAtPlace_legal h hq
    exact this
  · exact profile0_legal

/-- A reload takes a legal context (R42, R44). -/
theorem refreshContext_legal {ps : Vector (Option Profile) 31} (h : LegalProfiles ps) (s : Settings)
    (context : Option Context) : ∀ x, refreshContext ps s context = some x → x.params.border.Legal := by
  intro x hx
  obtain ⟨y, _, rfl⟩ := Option.map_eq_some_iff.1 hx
  exact reloadContext_legal h s _

/-! ## Intake of lines (R10, R56 to R60) -/

theorem joinFirst_length {l : Nat} {run : Span} {rs rs' : List DropRecord} (h : joinFirst l run rs = some rs') :
    rs'.length = rs.length := by
  induction rs generalizing rs' with
  | nil => simp [joinFirst] at h
  | cons r rs ih =>
    unfold joinFirst at h
    split at h
    · obtain rfl : _ = rs' := Option.some.inj h
      rfl
    · obtain ⟨rest, hrest, rfl⟩ := Option.map_eq_some_iff.1 h
      simp [ih hrest]

theorem recordRun_bound {c : Chan} {slot : Slot} {l : Nat} {f : InField} {run : Span} (h : f.Bound) :
    (recordRun c slot l f run).1.Bound := by
  obtain ⟨hlen, hopened⟩ := h
  unfold recordRun
  split
  · rename_i rs hrs
    exact ⟨(joinFirst_length hrs).trans_le hlen, hopened⟩
  · split
    · rename_i hfew
      exact ⟨by simpa using hlen, hfew⟩
    · exact ⟨hlen, hopened⟩

theorem recordRuns_bound {c : Chan} {slot : Slot} {l : Nat} {f : InField} (runs : List Span) (h : f.Bound) :
    (recordRuns c slot l f runs).1.Bound := by
  induction runs generalizing f with
  | nil => exact h
  | cons run rest ih => exact ih (recordRun_bound h)

theorem InField.examined_bound {f : InField} (h : f.Bound) (l : Nat) (runs : List Span) : (f.examined l runs).Bound :=
  ⟨(List.length_filter_le _ _).trans h.1, h.2⟩

/-- A property of the slots of a ring holds of those of a ring whose newest slot was exchanged for another that has it. -/
theorem forall_mem_exchange_last {p : Slot → Prop} {ring : List Slot} {slot' : Slot} (h : ∀ s ∈ ring, p s)
    (h' : p slot') : ∀ s ∈ ring.dropLast ++ [slot'], p s := by
  intro s hs
  rw [List.mem_append, List.mem_singleton] at hs
  obtain hs | rfl := hs
  · exact h s (List.mem_of_mem_dropLast hs)
  · exact h'

theorem length_exchange_last {ring : List Slot} {slot : Slot} (h : ring.getLast? = some slot) (slot' : Slot) :
    (ring.dropLast ++ [slot']).length = ring.length := by
  have hne : ring ≠ [] := by
    rintro rfl
    simp at h
  have := List.length_pos_iff.2 hne
  simp
  omega

/-- The newest slot of a ring exchanged for one of the same rectangle and copy, with the field in intake as it then stands. -/
theorem Channel.Keeps.exchange_last {ps : Vector (Option Profile) 31} {ch : Channel} {slot slot' : Slot}
    (hlast : ch.intake.ring.getLast? = some slot) (hw : slot'.window = slot.window) (hx : slot'.context = slot.context)
    {field : Option InField} (hf : ch.Bound → ∀ f, field = some f → f.Bound) (dropState : Bool) :
    ch.Keeps ps { ch with
      intake := { ch.intake with field := field, ring := ch.intake.ring.dropLast ++ [slot'] }
      dropState := dropState } := by
  have hmem : slot ∈ ch.intake.ring := List.mem_of_getLast? hlast
  refine ⟨fun h => { h with ring := ?_, slotWindows := ?_, field := hf h }, id, fun _ h => { h with slots := ?_ }⟩
  · exact (length_exchange_last hlast slot').trans_le h.ring
  · exact forall_mem_exchange_last h.slotWindows (hw ▸ h.slotWindows slot hmem)
  · exact forall_mem_exchange_last (p := fun s => s.context.params.border.Legal) h.slots (hx ▸ h.slots slot hmem)

/-- The field in intake as it stands. -/
theorem Channel.Keeps.field {ps : Vector (Option Profile) 31} {ch : Channel} {field : Option InField}
    (hf : ch.Bound → ∀ f, field = some f → f.Bound) :
    ch.Keeps ps { ch with intake := { ch.intake with field := field } } :=
  ⟨fun h => { h with field := hf h }, id, fun _ h => { h with }⟩

variable {c : Chan} {d d' : Device}

/-- A source that is raised in one case alone. -/
theorem Calm.raise_if (h : Calm c d d') (b : Bool) (src : Source) (detail : Detail) :
    Calm c d (if b then d'.raise src detail else d') := by
  split
  · exact h.trans (.raise c src detail d')
  · exact h

theorem calm_logRecords (c : Chan) (rs : List DropRecord) (d : Device) : Calm c d (d.logRecords rs) := by
  induction rs generalizing d with
  | nil => exact .refl c d
  | cons r rs ih => exact (Calm.logRecord c r d).trans (ih _)

theorem calm_closeField (c : Chan) (d : Device) : Calm c d (d.closeField c) := by
  unfold Device.closeField
  dsimp only
  split
  · exact (Calm.setChan (.field (field := none) fun _ _ h => by simp at h) rfl rfl (le_refl _)).trans (calm_logRecords c _ _)
  · exact .refl c d

theorem calm_intakeLine (c : Chan) (line : Line) (d : Device) : Calm c d (d.intakeLine c line) := by
  unfold Device.intakeLine
  dsimp only
  split
  · rename_i f slot hf hlast
    have hcount : (d.chan c).Bound → ({ f with lineCount := f.lineCount + 1 } : InField).Bound := fun h => h.field f hf
    split
    · exact .setChan (.field fun h f' hf' => Option.some.inj hf' ▸ hcount h) rfl rfl (le_refl _)
    · refine Calm.trans ?_ (calm_logRecords c _ _)
      refine Calm.raise_if (.setChan ?_ ?_ ?_ ?_) _ _ _
      rotate_left
      · rfl
      · rfl
      · exact (length_exchange_last hlast _).le
      refine .exchange_last hlast ?_ ?_ (fun h f' hf' => ?_) _
      · rfl
      · rfl
      exact Option.some.inj hf' ▸ InField.examined_bound (recordRuns_bound _ (hcount h)) _ _
  · exact .refl c d

/-! ## The tracker (R73 to R85) -/

theorem Channel.Keeps.tracker {ps : Vector (Option Profile) 31} {ch : Channel} {t : Tracker}
    (h : ch.tracker.Bound → t.Bound) : ch.Keeps ps { ch with tracker := t } :=
  ⟨fun b => { b with history := (h ⟨b.history, b.unusable⟩).1, unusable := (h ⟨b.history, b.unusable⟩).2 }, id,
    fun _ b => { b with }⟩

theorem Tracker.reset_bound : Tracker.reset.Bound := ⟨by decide, by decide⟩
theorem Tracker.broken_bound : Tracker.broken.Bound := ⟨by decide, by decide⟩
theorem Tracker.cleared_bound (t : Tracker) : t.cleared.Bound := ⟨Nat.zero_le _, Nat.zero_le _⟩

theorem calm_setTracker {t : Tracker} (h : (d.chan c).tracker.Bound → t.Bound) (r : CadenceReason) :
    Calm c d (d.setTracker c t r) := by
  unfold Device.setTracker
  dsimp only
  split
  · exact .modChan (.tracker h) rfl rfl (le_refl _)
  · exact (Calm.modChan (.tracker h) rfl rfl (le_refl _)).trans (.raise c _ _ _)

theorem calm_tellMode (c : Chan) (before after : Option Context) (p : Option ForcedPhase) (d : Device) :
    Calm c d (d.tellMode c before after p) := by
  unfold Device.tellMode
  split
  · split
    · exact .refl c d
    · refine calm_setTracker ?_ _
      exact id
  · exact .refl c d

theorem Tracker.autoStep_bound {t : Tracker} (h : t.Bound) (sig : Signature) (third : Bool) :
    (t.autoStep sig third).1.Bound := by
  unfold Tracker.autoStep
  split
  · split <;> exact h
  · split
    · exact Tracker.broken_bound
    · split <;> exact h
  · split
    · exact Tracker.broken_bound
    · dsimp only
      split
      · exact Tracker.broken_bound
      · exact h
  · split
    · exact Tracker.broken_bound
    · dsimp only
      split
      · exact Tracker.broken_bound
      · exact h
  all_goals exact h

/-- A signature joins the history of ten and sets the counter, which stays within 3 (R73). -/
theorem Tracker.step_bound (t : Tracker) (n : Slot) (sig : Signature) : (t.step n sig).1.Bound := by
  have h : Tracker.Bound { t with history := appendSignature t.history sig, unusable := countUnusable t.unusable sig } := by
    refine ⟨?_, ?_⟩
    · simp only [appendSignature, List.length_drop]
      omega
    · simp only [countUnusable]
      split <;> omega
  unfold Tracker.step
  dsimp only
  split
  · exact Tracker.autoStep_bound h _ _
  all_goals exact h

/-! ## Plans, contexts and flushes (R32, R48, R104) -/

theorem Plan.empty_ordered : Plan.empty.Ordered :=
  ⟨by decide, by simp [Plan.empty], by simp [Plan.empty], by simp [Plan.empty]⟩

theorem Channel.Keeps.reader {ps : Vector (Option Profile) 31} {ch : Channel} {r : Reader}
    (h : ch.PlansOrdered → r.committed.Ordered ∧ r.staged.Ordered) : ch.Keeps ps { ch with reader := r } :=
  ⟨fun b => { b with }, h, fun _ b => { b with }⟩

theorem Channel.Keeps.context {ps : Vector (Option Profile) 31} {ch : Channel} {x : Option Context}
    (h : LegalProfiles ps → ch.LegalOutput → ∀ y, x = some y → y.params.border.Legal) :
    ch.Keeps ps { ch with context := x } :=
  ⟨fun b => { b with }, id, fun p b => { b with context := h p b }⟩

theorem calm_swapPlan (c : Chan) (tag : Byte) (d : Device) : Calm c d (d.swapPlan c tag) :=
  (Calm.modChan (.reader fun h => ⟨h.2, Plan.empty_ordered⟩) rfl rfl (le_refl _)).trans
    (.settleOp c tag c _ _ _ _)

theorem calm_refreshNow (c : Chan) (tag : Byte) (d : Device) : Calm c d (d.refreshNow c tag) :=
  ((Calm.modChan (.context fun h _ => refreshContext_legal h _ _) rfl rfl (le_refl _)).trans
    (calm_tellMode c _ _ _ _)).trans (.settleOp c tag c _ _ _ _)

theorem Channel.Keeps.windowMemory {ps : Vector (Option Profile) 31} {ch : Channel} {w : Option WindowMark}
    (h : ch.Bound → ∀ x, w = some x → x.Bound) :
    ch.Keeps ps { ch with recon := { ch.recon with windowMemory := w } } :=
  ⟨fun b => { b with windowMemory := h b }, id, fun _ b => { b with }⟩

/-- Fields marked stale, with a discard flag (R8, R104). -/
theorem Channel.Keeps.markStale {ps : Vector (Option Profile) 31} (ch : Channel) (discard : Bool) :
    ch.Keeps ps { ch with intake := { ch.intake with ring := markStale ch.intake.ring, discard := discard } } := by
  have hmem : ∀ {p : Slot → Prop}, (∀ s ∈ ch.intake.ring, p { s with stale := true }) →
      ∀ s ∈ Machine.markStale ch.intake.ring, p s := fun h => List.forall_mem_map.2 h
  exact ⟨fun b => { b with ring := by simpa [Machine.markStale] using b.ring, slotWindows := hmem b.slotWindows }, id,
    fun _ b => { b with slots := hmem (p := fun s => s.context.params.border.Legal) b.slots }⟩

theorem calm_flushNow (c : Chan) (asked : FlushScope) (tag : Byte) (d : Device) : Calm c d (d.flushNow c asked tag) := by
  unfold Device.flushNow
  split
  · refine Calm.trans (.modChan (.windowMemory fun _ w hw => ?_) rfl rfl (le_refl _)) (.settleOp c tag c _ _ _ _)
    exact Option.some.inj hw ▸ .inr rfl
  · refine Calm.trans (Calm.trans (.modChan ?_ rfl rfl (by simp [markStale])) (calm_setTracker ?_ _))
      (.settleOp c tag c _ _ _ _)
    · exact (Channel.Keeps.markStale _ (d.chan c).intake.discard).trans (.windowMemory fun _ _ h => by simp at h)
    · exact fun _ => Tracker.cleared_bound _

theorem calm_settleCommit (c : Chan) (d : Device) : Calm c d (d.settleCommit c) := by
  unfold Device.settleCommit
  split
  · exact calm_swapPlan c _ d
  · exact .refl c d

theorem calm_settleRefresh (c : Chan) (d : Device) : Calm c d (d.settleRefresh c) := by
  unfold Device.settleRefresh
  split
  · exact calm_refreshNow c _ d
  · exact .refl c d

theorem calm_settleFlush (c : Chan) (d : Device) : Calm c d (d.settleFlush c) := by
  unfold Device.settleFlush
  split
  · exact calm_flushNow c _ _ d
  · exact .refl c d

theorem calm_leaveRunning (c : Chan) (d : Device) : Calm c d (d.leaveRunning c) :=
  ((calm_settleCommit c d).trans (calm_settleRefresh c _)).trans (calm_settleFlush c _)

theorem calm_contextStep (c : Chan) (k : Option Count) (d : Device) : Calm c d (d.contextStep c k) := by
  unfold Device.contextStep
  dsimp only
  refine Calm.trans (Calm.trans ?_ (.modChan (.reader ?_) rfl rfl (le_refl _))) (calm_tellMode c _ _ _ _)
  rotate_left
  · exact id
  have hx : Calm c d (d.setChan c { d.chan c with
      context :=
        if reloads (d.chan c).context (requestedId (d.chan c).settings (d.chan c).reader.selection)
            (d.pendingOp .refresh c).isSome then
          some (reloadContext d.profiles (d.chan c).settings
            (requestedId (d.chan c).settings (d.chan c).reader.selection))
        else (d.chan c).context }) := by
    refine .setChan (.context fun h b x hx => ?_) rfl rfl (le_refl _)
    split at hx
    · exact Option.some.inj hx ▸ reloadContext_legal h _ _
    · exact b.context x hx
  split
  · exact hx.trans (.settleOp c _ c _ _ _ _)
  · exact hx

theorem calm_editStep (c : Chan) (r : Option EditReason) (k : Option Count) (d : Device) :
    Calm c d (d.editStep c r k) := by
  unfold Device.editStep
  split
  · exact .refl c d
  · exact ((Calm.modChan (.markStale _ false) rfl rfl (by simp [markStale])).trans
      (calm_setTracker (fun _ => Tracker.cleared_bound _) _)).trans (.raise c _ _ _)

/-! ## Completed reconstructions (R90, R134) -/

theorem legalSample_clampInt (v : Int) : LegalSample (BitVec.ofNat 10 (clampInt 4 1019 v)) := by
  unfold LegalSample clampInt
  rw [BitVec.toNat_ofNat]
  omega

/-- Every entry of a table is one that its function gives. -/
theorem forall_mem_tabulate {α : Type} {n : Nat} {f : Nat → α} {p : α → Prop} (h : ∀ i, p (f i)) :
    ∀ a ∈ (tabulate n f).toList, p a := by
  intro a ha
  obtain ⟨i, _, rfl⟩ : ∃ i, i < n ∧ f i = a := by simpa [tabulate] using ha
  exact h i

/-- A composed picture is legal where the border colour of its field's copy is (R116 to R118). -/
theorem compose_legal {v : View} (h : v.field.context.params.border.Legal) (sys : System) :
    LegalRaster (compose sys v).raster := by
  obtain ⟨hy, hcb, hcr⟩ := h
  refine forall_mem_tabulate fun y => ⟨?_, ?_, ?_⟩ <;> refine forall_mem_tabulate fun i => ?_ <;> split
  · exact legalSample_clampInt _
  · exact hy
  · exact legalSample_clampInt _
  · exact hcb
  · exact legalSample_clampInt _
  · exact hcr

theorem flatRaster_legal {c : Colour} (h : c.Legal) : LegalRaster (tabulate 1080 fun _ => flatRow c) := by
  obtain ⟨hy, hcb, hcr⟩ := h
  exact forall_mem_tabulate fun _ =>
    ⟨forall_mem_tabulate fun _ => hy, forall_mem_tabulate fun _ => hcb, forall_mem_tabulate fun _ => hcr⟩

theorem black_legal : LegalRaster OutFrame.black.raster :=
  flatRaster_legal (by simp [Colour.Legal, LegalSample])

/-- A change of the synchroniser that keeps its bounds and its frames legal. -/
theorem Channel.Keeps.sync {ps : Vector (Option Profile) 31} {ch : Channel} {s : Synchroniser}
    (hb : ch.Bound → s.queue.length ≤ Config.queueDepth ∧ s.repeats ≤ Config.countMax ∧ s.drops ≤ Config.countMax ∧
      s.hold ≤ Config.holdMax)
    (ho : ch.LegalOutput → (∀ p ∈ s.queue, LegalRaster p.raster) ∧ LegalRaster s.onAir.raster) :
    ch.Keeps ps { ch with sync := s } := by
  refine ⟨fun b => ?_, id, fun _ b => { b with queue := (ho b).1, onAir := (ho b).2 }⟩
  obtain ⟨hq, hr, hd, hh⟩ := hb b
  exact { b with queue := hq, repeats := hr, drops := hd, hold := hh }

theorem saturate_le (n : Nat) : saturate n ≤ Config.countMax := Nat.min_le_left _ _

theorem appendFrame_length {queue : List Picture} (h : queue.length ≤ Config.queueDepth) (p : Picture) :
    (appendFrame queue p).length ≤ Config.queueDepth := by
  rw [appendFrame, List.length_append, List.length_singleton]
  split
  · rw [List.length_tail]
    have : Config.queueDepth = 2 := rfl
    omega
  · omega

theorem forall_mem_appendFrame {queue : List Picture} {p : Picture} (h : ∀ q ∈ queue, LegalRaster q.raster)
    (hp : LegalRaster p.raster) : ∀ q ∈ appendFrame queue p, LegalRaster q.raster := by
  intro q hq
  unfold appendFrame at hq
  rw [List.mem_append, List.mem_singleton] at hq
  obtain hq | rfl := hq
  · split at hq
    · exact h q (List.mem_of_mem_tail hq)
    · exact h q hq
  · exact hp

/-- A frame joins the queue of a channel that comes from one whose frames to come are legal (R134). -/
theorem Channel.Keeps.append {ps : Vector (Option Profile) 31} {ch ch' : Channel} (h : ch.Keeps ps ch') {p : Picture}
    (hp : ch.LegalOutput → LegalRaster p.raster) {drops : Nat}
    (hd : drops = ch'.sync.drops ∨ drops = saturate ch'.sync.drops) :
    ch.Keeps ps { ch' with
      sync := { ch'.sync with queue := appendFrame ch'.sync.queue p, awaited := false, drops := drops } } := by
  refine ⟨fun b => ?_, h.plans, fun hps b => ?_⟩
  · have b' := h.bound b
    refine { b' with queue := appendFrame_length b'.queue p, drops := ?_ }
    obtain rfl | rfl := hd
    · exact b'.drops
    · exact saturate_le _
  · have b' := h.output hps b
    exact { b' with queue := forall_mem_appendFrame b'.queue (hp b) }

theorem Calm.appendPicture (h : Calm c d d') {p : Picture} (hp : (d.chan c).LegalOutput → LegalRaster p.raster) :
    Calm c d (d'.appendPicture c p) := by
  unfold Device.appendPicture
  dsimp only
  refine Calm.raise_if ⟨⟨h.works.trans (.setChan d' c _), ?_⟩, ?_, ?_, ?_⟩ _ _ _
  · rw [Device.chan_setChan_self]
    refine h.keeps.append hp ?_
    split <;> simp
  · simpa using h.state
  · simpa using h.gen
  · simpa using h.room

/-- The field that leaves the ring and the work that is taken from those waiting. -/
theorem Channel.Keeps.release {ps : Vector (Option Profile) 31} {ch : Channel} {v : View} {rest : List View}
    (h : ch.recon.jobs = v :: rest) (seq : Option Seq) (now : Ticks) :
    ch.Keeps ps { ch with
      intake := { ch.intake with ring := releaseField ch.intake.ring seq }
      recon := { ch.recon with jobs := rest, workStart := now } } :=
  ⟨fun b => { b with
      ring := (List.length_filter_le _ _).trans b.ring
      slotWindows := fun s hs => b.slotWindows s (List.mem_of_mem_filter hs) }, id,
    fun _ b => { b with
      slots := fun s hs => b.slots s (List.mem_of_mem_filter hs)
      jobs := fun w hw => b.jobs w (h ▸ List.mem_cons_of_mem v hw) }⟩

theorem calm_completeRecon (c : Chan) (d : Device) : Calm c d (d.completeRecon c) := by
  unfold Device.completeRecon
  dsimp only
  split
  · exact .refl c d
  · rename_i v rest hjobs
    have hreleased := Calm.setChan (c := c) (d := d) (.release hjobs v.releases d.now) rfl rfl
      (List.length_filter_le _ _)
    have hlegal : (d.chan c).LegalOutput → LegalRaster (compose (d.chan c).settings.system v).raster :=
      fun b => compose_legal (b.jobs v (hjobs ▸ List.mem_cons_self)) _
    split
    · exact hreleased.appendPicture hlegal
    · exact hreleased.appendPicture hlegal
    all_goals exact hreleased

/-! ## Field ends and the field that is let go (R11 to R13, R16) -/

/-- The newest field leaves the ring, with a discard flag. -/
theorem Channel.Keeps.dropLast {ps : Vector (Option Profile) 31} (ch : Channel) (discard : Bool) :
    ch.Keeps ps { ch with intake := { ch.intake with ring := ch.intake.ring.dropLast, discard := discard } } :=
  ⟨fun b => { b with
      ring := (List.dropLast_sublist _).length_le.trans b.ring
      slotWindows := fun s hs => b.slotWindows s (List.mem_of_mem_dropLast hs) }, id,
    fun _ b => { b with slots := fun s hs => b.slots s (List.mem_of_mem_dropLast hs) }⟩

theorem calm_removeField (c : Chan) (d : Device) : Calm c d (d.removeField c) :=
  (calm_closeField c d).trans (.modChan (.dropLast _ true) rfl rfl (by simp))

theorem calm_dropField (c : Chan) (d : Device) : Calm c d (d.dropField c) := by
  unfold Device.dropField
  split
  · exact (calm_closeField c d).trans (.modChan (.dropLast _ _) rfl rfl (by simp))
  · exact .refl c d

/-- A reconstruction begins with a view whose field has a legal border (R89). -/
theorem Channel.Keeps.beginRecon {ps : Vector (Option Profile) 31} {ch : Channel} {now : Ticks} {v : Option View}
    (h : ch.LegalOutput → ∀ w, v = some w → w.field.context.params.border.Legal) :
    ch.Keeps ps (ch.beginRecon now v) := by
  unfold Channel.beginRecon
  split
  · rename_i w hw
    have hv : v = some w := (Option.filter_eq_some_iff.1 hw).1
    refine ⟨fun b => { b with }, id, fun _ b => { b with jobs := fun x hx => ?_ }⟩
    rw [Reconstructor.begin, List.mem_append, List.mem_singleton] at hx
    obtain hx | rfl := hx
    · exact b.jobs x hx
    · exact h b x hv
  · exact .refl _ _

theorem previousField_mem {ring : List Slot} {n : Slot} (h : previousField ring = some n) : n ∈ ring :=
  List.mem_of_mem_dropLast (List.mem_of_getLast? h)

theorem viewAtEnd_field {ring : List Slot} {q : Cadence} {v : View} (h : viewAtEnd ring q = some v) : v.field ∈ ring := by
  obtain ⟨n, hn, rfl⟩ := Option.map_eq_some_iff.1 h
  exact previousField_mem hn

theorem viewAtLoss_field {ring : List Slot} {v : View} (h : viewAtLoss ring = some v) : v.field ∈ ring := by
  obtain ⟨n, hn, rfl⟩ := Option.map_eq_some_iff.1 h
  exact List.mem_of_getLast? hn

@[simp] theorem Channel.beginRecon_state (ch : Channel) (now : Ticks) (v : Option View) :
    (ch.beginRecon now v).state = ch.state := by
  unfold Channel.beginRecon
  split <;> rfl
@[simp] theorem Channel.beginRecon_gen (ch : Channel) (now : Ticks) (v : Option View) :
    (ch.beginRecon now v).gen = ch.gen := by
  unfold Channel.beginRecon
  split <;> rfl
@[simp] theorem Channel.beginRecon_intake (ch : Channel) (now : Ticks) (v : Option View) :
    (ch.beginRecon now v).intake = ch.intake := by
  unfold Channel.beginRecon
  split <;> rfl

theorem calm_keepField {f : InField} {slot : Slot} (h : (d.chan c).intake.ring.getLast? = some slot) :
    Calm c d (d.keepField c f slot) := by
  have hclosed : ((d.closeField c).chan c).intake.ring.getLast? = some slot := by
    rw [Device.closeField_chan]
    exact h
  unfold Device.keepField
  dsimp only
  refine Calm.trans ?_ (.modChan ?_ ?_ ?_ ?_)
  refine Calm.trans ?_ (calm_setTracker ?_ _)
  refine Calm.trans (calm_closeField c d) (.setChan ?_ ?_ ?_ ?_)
  · refine .exchange_last hclosed ?_ ?_ (fun b => b.field) _
    · rfl
    · rfl
  · rfl
  · rfl
  · exact (length_exchange_last hclosed _).le
  · exact fun _ => Tracker.step_bound _ _ _
  · refine (Channel.Keeps.beginRecon fun b w hw => b.slots w.field ?_).trans ⟨fun b => { b with }, id, fun _ b => { b with }⟩
    simpa using viewAtEnd_field hw
  · simp
  · simp
  · simp

theorem calm_endField (c : Chan) (d : Device) : Calm c d (d.endField c) := by
  unfold Device.endField
  dsimp only
  split
  · rename_i hlast
    split
    · exact calm_keepField hlast
    · exact calm_removeField c d
  · exact .refl c d

end Sys2Proof.Machine
end


section
/-! PROOFS. The work on one channel that changes its state or its generator: output frames, output timing, losses, field
starts and what the controller does. -/

namespace Sys2Proof.Machine

variable {c : Chan} {d d' : Device}

/-! ## Output frames (R126, R135 to R138, R146) -/

theorem slate_legal {ch : Channel} (b : ch.LegalOutput) : LegalRaster ch.slate.raster := by
  refine flatRaster_legal ?_
  unfold borderColour
  split
  · rename_i x hx
    exact b.context x hx
  · exact profile0_legal

theorem again_legal {ch : Channel} (b : ch.LegalOutput) : LegalRaster (ch.sync.onAir.again ch.context).raster := by
  have hair := b.onAir
  unfold OutFrame.again
  split
  · rename_i p hp
    rwa [hp] at hair
  · exact slate_legal b
  · exact black_legal

/-- A change of the frame on air alone. -/
theorem Channel.Keeps.onAir {ps : Vector (Option Profile) 31} {ch : Channel} {o : OutFrame}
    (h : ch.LegalOutput → LegalRaster o.raster) : ch.Keeps ps { ch with sync := { ch.sync with onAir := o } } :=
  .sync (fun b => ⟨b.queue, b.repeats, b.drops, b.hold⟩) fun b => ⟨b.queue, h b⟩

theorem Channel.Keeps.showNext {ps : Vector (Option Profile) 31} {ch : Channel} {p : Picture} {rest : List Picture}
    (h : ch.sync.queue = p :: rest) : ch.Keeps ps { ch with sync := ch.sync.showNext p rest } := by
  refine .sync (fun b => ⟨?_, b.repeats, b.drops, b.hold⟩)
    fun b => ⟨fun q hq => b.queue q (h ▸ List.mem_cons_of_mem p hq), b.queue p (h ▸ List.mem_cons_self)⟩
  have hq := b.queue
  rw [h, List.length_cons] at hq
  exact Nat.le_of_succ_le hq

theorem Channel.Keeps.runningFrame {ps : Vector (Option Profile) 31} (ch : Channel) (frozen : Bool) :
    ch.Keeps ps { ch with sync := (ch.runningFrame frozen).1 } := by
  unfold Channel.runningFrame
  dsimp only
  split
  · exact .onAir again_legal
  · split
    · rename_i hq
      exact .showNext hq
    · split
      · exact .onAir slate_legal
      · split
        · exact .onAir again_legal
        · exact .sync (fun b => ⟨b.queue, saturate_le _, b.drops, b.hold⟩) fun b => ⟨b.queue, again_legal b⟩

theorem Channel.Keeps.holdingFrame {ps : Vector (Option Profile) 31} (ch : Channel) :
    ch.Keeps ps { ch with sync := ch.holdingFrame } := by
  unfold Channel.holdingFrame
  split
  · rename_i hq
    exact .showNext hq
  · split
    · rename_i hhold
      refine .sync (fun b => ⟨b.queue, b.repeats, b.drops, ?_⟩) fun b => ⟨b.queue, again_legal b⟩
      exact Nat.le_trans hhold b.holdLimit
    · exact .onAir slate_legal

theorem Channel.Keeps.stopped {ps : Vector (Option Profile) 31} (ch : Channel) : ch.Keeps ps ch.stopped := by
  refine ⟨fun b => ⟨?_, ?_, ?_, ?_, b.history, b.unusable, ?_, b.repeats, b.drops, b.hold, b.holdLimit, b.defaultProfile⟩,
    fun h => h, fun _ b => ⟨b.context, ?_, ?_, ?_, slate_legal b⟩⟩ <;> simp [Channel.stopped, Reconstructor.reset]

/-- The generator does not reach what a change of a channel keeps. -/
theorem Channel.Keeps.gen {ps : Vector (Option Profile) 31} (ch : Channel) (g : Generator) :
    ch.Keeps ps { ch with gen := g } := ⟨fun b => { b with }, fun h => h, fun _ b => { b with }⟩

theorem evolves_stopComplete (c : Chan) (d : Device) : Evolves c d (d.stopComplete c) := by
  have h : Evolves c d ((d.modChan c Channel.stopped).setTracker c
      ((d.modChan c Channel.stopped).chan c).tracker.cleared .flush) :=
    (Evolves.modChan (.stopped _)).trans (calm_setTracker (fun _ => Tracker.cleared_bound _) _).toEvolves
  unfold Device.stopComplete
  dsimp only
  split
  · exact h.trans (Calm.settleOp c _ c _ _ _ _).toEvolves
  · exact h

theorem evolves_outputFrame (c : Chan) (d : Device) : Evolves c d (d.outputFrame c) := by
  have hcounted : Evolves c d (d.modChan c fun ch => { ch with gen := { ch.gen with lastOut := d.now } }) :=
    .modChan (.gen _ _)
  unfold Device.outputFrame
  dsimp only
  refine hcounted.trans ?_
  split
  · exact .setChan (.onAir fun _ => black_legal)
  · exact .setChan (.onAir fun _ => black_legal)
  · split
    · exact (Evolves.setChan (.runningFrame _ _)).trans (Calm.raise c _ _ _).toEvolves
    · exact .setChan (.runningFrame _ _)
  · exact .setChan (.holdingFrame _)
  · exact evolves_stopComplete c _

/-! ## Output timing (R124 to R131) -/

theorem evolves_setTiming (c : Chan) (t : TimingState) (d : Device) : Evolves c d (d.setTiming c t) :=
  .modChan (.gen _ _)

theorem evolves_keepPeriod (c : Chan) (p : Option Ticks) (d : Device) : Evolves c d (d.keepPeriod c p) :=
  .modChan (.gen _ _)

theorem calm_raiseTiming (c : Chan) (r : TimingReason) (d : Device) : Calm c d (d.raiseTiming c r) := .raise c _ _ d

theorem calm_settleTiming (c : Chan) (r : TimingReason) (d : Device) : Calm c d (d.settleTiming c r) := by
  unfold Device.settleTiming
  split
  · exact .settleOp c _ c _ _ _ d
  · exact .refl c d

theorem evolves_guardedFrame (c : Chan) (d : Device) : Evolves c d (d.guardedFrame c) := by
  unfold Device.guardedFrame
  dsimp only
  split
  · exact evolves_outputFrame c d
  · exact .refl c d

theorem evolves_declareLock (c : Chan) (t : RefSource) (b : Bool) (i : Option Ticks) (d : Device) :
    Evolves c d (d.declareLock c t b i) := by
  have h : Evolves c d ((((d.setTiming c (.settled (.locked t))).keepPeriod c i).guardedFrame c).raiseTiming c .lock) :=
    (((evolves_setTiming c _ d).trans (evolves_keepPeriod c i _)).trans (evolves_guardedFrame c _)).trans
      (calm_raiseTiming c .lock _).toEvolves
  unfold Device.declareLock
  dsimp only
  split
  · exact h.trans (calm_settleTiming c _ _).toEvolves
  · exact h

theorem evolves_referenceStart (c : Chan) (src : RefSource) (i : Option Ticks) (d : Device) :
    Evolves c d (d.referenceStart c src i) := by
  unfold Device.referenceStart
  dsimp only
  split
  · exact .refl c d
  · split
    · refine Evolves.trans ?_ (evolves_guardedFrame c _)
      split
      · exact evolves_keepPeriod c _ d
      · exact .refl c d
    · exact .refl c d
  · split
    · exact (evolves_setTiming c _ d).trans (calm_raiseTiming c _ _).toEvolves
    · exact .refl c d
  · have hframe : ∀ t, Evolves c d ((d.setTiming c t).guardedFrame c) := fun t =>
      (evolves_setTiming c t d).trans (evolves_guardedFrame c _)
    have hstart : ∀ (a : Acquisition) (follows within : Bool), Evolves c d
        (if a.target = src then
          if 8 ≤ a.nextRun within then d.declareLock c src a.commanded i
          else
            if follows then (d.setTiming c (.acquire { a with run := a.nextRun within, seen := true })).guardedFrame c
            else d.setTiming c (.acquire { a with run := a.nextRun within, seen := true })
        else if follows then (d.setTiming c (.acquire a)).guardedFrame c else d.setTiming c (.acquire a)) := by
      intro a follows within
      split <;> split
      · exact evolves_declareLock c _ _ _ d
      · split
        · exact hframe _
        · exact evolves_setTiming c _ d
      · exact hframe _
      · exact evolves_setTiming c _ d
    exact hstart _ _ _

theorem evolves_loseReference (c : Chan) (d : Device) : Evolves c d (d.loseReference c) := by
  unfold Device.loseReference
  split
  · exact ((evolves_setTiming c _ d).trans (evolves_outputFrame c _)).trans (calm_raiseTiming c _ _).toEvolves
  · exact .refl c d

theorem evolves_losePriorReference (c : Chan) (d : Device) : Evolves c d (d.losePriorReference c) := by
  unfold Device.losePriorReference
  split
  · split
    · exact (evolves_setTiming c _ d).trans (evolves_outputFrame c _)
    · exact .refl c d
  · exact .refl c d

theorem evolves_failAcquisition (c : Chan) (d : Device) : Evolves c d (d.failAcquisition c) := by
  unfold Device.failAcquisition
  dsimp only
  split
  · rename_i a _
    have h : Evolves c d (((d.setTiming c (.settled a.prior)).keepPeriod c a.priorKept).raiseTiming c
        (failureReason (d.chan c).settings.system d.houseFamily a)) :=
      ((evolves_setTiming c _ d).trans (evolves_keepPeriod c _ _)).trans (calm_raiseTiming c _ _).toEvolves
    split
    · exact h.trans (calm_settleTiming c _ _).toEvolves
    · exact h
  · exact .refl c d

theorem evolves_reconfigureTiming (c : Chan) (d : Device) : Evolves c d (d.reconfigureTiming c) := by
  have h : Evolves c d (d.setChan c { d.chan c with
      gen := (d.chan c).gen.reconfigure (d.chan c).settings.system d.now }) := .setChan (.gen _ _)
  unfold Device.reconfigureTiming
  dsimp only
  split
  · exact h.trans (calm_raiseTiming c _ _).toEvolves
  · exact h

/-! ## Losses and field starts (R5, R6, R16) -/

theorem Channel.Keeps.rebuildAtLoss {ps : Vector (Option Profile) 31} (ch : Channel) (now : Ticks) :
    ch.Keeps ps (ch.rebuildAtLoss now) := by
  unfold Channel.rebuildAtLoss
  split
  · rename_i v hv
    have hmem : v.field ∈ ch.intake.ring := viewAtLoss_field (Option.filter_eq_some_iff.1 hv).1
    refine ⟨fun b => { b with ring := ?_, slotWindows := ?_ }, fun h => h, fun _ b => { b with slots := ?_, jobs := ?_ }⟩
    · exact Nat.succ_le_of_lt (by decide)
    · simpa using b.slotWindows _ hmem
    · simpa using b.slots _ hmem
    · intro x hx
      rw [Reconstructor.begin, List.mem_append, List.mem_singleton] at hx
      obtain hx | rfl := hx
      · exact b.jobs x hx
      · exact b.slots _ hmem
  · exact ⟨fun b => { b with ring := Nat.zero_le _, slotWindows := by simp }, fun h => h, fun _ b => { b with slots := by simp }⟩

/-- A channel at a loss, but for the settling: HOLDING, with the input condition of the reason. -/
def Channel.heldAt (ch : Channel) (input : InputCond) : Channel :=
  { ch with
    state := .holding
    intake := { ch.intake with prevIdentity := none, discard := false, timeout := none, input := input }
    sync := { ch.sync with hold := 0 } }

theorem Channel.Keeps.heldAt {ps : Vector (Option Profile) 31} (ch : Channel) (input : InputCond) :
    ch.Keeps ps (ch.heldAt input) :=
  ⟨fun b => { b with hold := Nat.zero_le _ }, fun h => h, fun _ b => { b with }⟩

/-- A loss up to the settling of what is pending (R16). -/
def Device.lossUnsettled (c : Chan) (why : LossReason) (d : Device) : Device :=
  let d := (d.dropField c).modChan c fun ch => ch.rebuildAtLoss d.now
  let d := d.setTracker c (d.chan c).tracker.cleared .loss
  (d.modChan c fun ch => ch.heldAt why.condition).raise (.input c) (.input .holding why.reason)

theorem Device.declareLoss_eq_leaveRunning (c : Chan) (why : LossReason) (d : Device) :
    d.declareLoss c why = (d.lossUnsettled c why).leaveRunning c := rfl

theorem evolves_lossUnsettled (c : Chan) (why : LossReason) (d : Device) : Evolves c d (d.lossUnsettled c why) :=
  ((((calm_dropField c d).toEvolves.trans (.modChan (.rebuildAtLoss _ _))).trans
    (calm_setTracker (fun _ => Tracker.cleared_bound _) _).toEvolves).trans (.modChan (.heldAt _ _))).trans
      (Calm.raise c _ _ _).toEvolves

theorem evolves_declareLoss (c : Chan) (why : LossReason) (d : Device) : Evolves c d (d.declareLoss c why) :=
  (evolves_lossUnsettled c why d).trans (calm_leaveRunning c _).toEvolves

theorem Channel.rebuildAtLoss_gen (ch : Channel) (now : Ticks) : (ch.rebuildAtLoss now).gen = ch.gen := by
  unfold Channel.rebuildAtLoss
  split <;> rfl

theorem Device.declareLoss_gen (c : Chan) (why : LossReason) (d : Device) :
    ((d.declareLoss c why).chan c).gen = (d.chan c).gen := by
  rw [Device.declareLoss_eq_leaveRunning, (calm_leaveRunning c _).gen]
  simp [Device.lossUnsettled, Channel.heldAt, Channel.rebuildAtLoss_gen, (calm_dropField c d).gen]

/-- The steps of a field start that come before the field joins the ring (R5, steps 1 to 7 of R6). -/
def Device.takeInSteps (c : Chan) (label : Label) (d : Device) : Device :=
  let d := d.modChan c fun ch =>
    { ch with intake := ch.intake.takeRoom (d.now + ch.settings.system.lossTime) }
  let count := labelCount (d.chan c).settings label
  let jump := jumpTest (d.chan c).reader.lastCount count
  let d := d.modChan c fun ch => { ch with reader := { ch.reader with lastCount := count } }
  let d := d.settleCommit c
  let previous := (d.chan c).reader.selection
  let selected := (d.chan c).reader.lookup count
  let d := d.modChan c fun ch => { ch with reader := { ch.reader with selection := selected } }
  let d := d.contextStep c count
  let i := (d.chan c).intake
  let reason := editReason i.discard jump (decide (i.prevIdentity = some label.identity))
    (planMark count previous selected) i.editMark
  (d.editStep c reason count).settleFlush c

theorem Device.takeIn_eq_steps (c : Chan) (label : Label) (d : Device) :
    d.takeIn c label = (((d.takeInSteps c label).modChan c fun ch =>
      ch.enterField (d.chan c).intake.nextSeq label.identity (labelCount (d.chan c).settings label))).inputStart c := by
  unfold Device.takeIn Device.takeInSteps
  simp only [Device.chan_modChan_self]

theorem makeRoom_sublist (ring : List Slot) : (makeRoom ring).Sublist ring := by
  unfold makeRoom
  split
  · exact ring.tail_sublist
  · exact .refl _

/-- In a ring of five the oldest field has left. -/
theorem makeRoom_length {ring : List Slot} (h : ring.length ≤ Config.ringDepth) :
    (makeRoom ring).length + 1 ≤ Config.ringDepth := by
  unfold makeRoom
  split
  · rename_i hfull
    have : 0 < Config.ringDepth := by decide
    rw [List.length_tail]
    omega
  · omega

theorem Channel.Keeps.takeRoom {ps : Vector (Option Profile) 31} (ch : Channel) (deadline : Ticks) :
    ch.Keeps ps { ch with intake := ch.intake.takeRoom deadline } :=
  ⟨fun b => { b with
      ring := (makeRoom_sublist _).length_le.trans b.ring
      slotWindows := fun s hs => b.slotWindows s ((makeRoom_sublist _).subset hs) }, fun h => h,
    fun _ b => { b with slots := fun s hs => b.slots s ((makeRoom_sublist _).subset hs) }⟩

theorem calm_takeInSteps (c : Chan) (label : Label) (d : Device) :
    Calm c d (d.takeInSteps c label) ∧
      ((d.takeInSteps c label).chan c).intake.ring.length ≤ (makeRoom (d.chan c).intake.ring).length := by
  unfold Device.takeInSteps
  dsimp only
  have hroom := Calm.modChan (c := c) (d := d) (f := fun ch =>
    { ch with intake := ch.intake.takeRoom (d.now + ch.settings.system.lossTime) }) (.takeRoom _ _) rfl rfl
      (makeRoom_sublist _).length_le
  have hring : ((d.modChan c fun ch =>
      { ch with intake := ch.intake.takeRoom (d.now + ch.settings.system.lossTime) }).chan c).intake.ring =
      makeRoom (d.chan c).intake.ring := by simp [Intake.takeRoom]
  rw [← hring]
  generalize (d.modChan c fun ch =>
    { ch with intake := ch.intake.takeRoom (d.now + ch.settings.system.lossTime) }) = e at hroom
  refine (fun h => ⟨hroom.trans h, h.room⟩) ?_
  refine Calm.trans ?_ (calm_settleFlush c _)
  refine Calm.trans ?_ (calm_editStep c _ _ _)
  refine Calm.trans ?_ (calm_contextStep c _ _)
  refine Calm.trans ?_ (.modChan (.reader fun h => h) rfl rfl (le_refl _))
  refine Calm.trans ?_ (calm_settleCommit c _)
  exact .modChan (.reader fun h => h) rfl rfl (le_refl _)

theorem WindowMark.spend_bound {m : Option WindowMark} (h : ∀ w, m = some w → w.Bound) :
    ∀ w, spendWindow m = some w → w.Bound := by
  intro w hw
  obtain ⟨x, hx, hxw⟩ := Option.bind_eq_some_iff.1 hw
  split at hxw
  · simp at hxw
  · obtain rfl := Option.some.inj hxw
    obtain hb | hb := h x hx
    · omega
    · exact .inl (by simp [hb])

/-- The slot of the field joins a ring that has room for it (step 8 of R6). -/
theorem Channel.Keeps.enterField {ps : Vector (Option Profile) 31} {ch ch' : Channel} (h : ch.Keeps ps ch')
    (hroom : ch.Bound → ch'.intake.ring.length + 1 ≤ Config.ringDepth) (seq : Seq) (identity : Identity)
    (count : Option Count) : ch.Keeps ps (ch'.enterField seq identity count) := by
  unfold Channel.enterField
  split
  · exact h
  · rename_i x hx
    refine ⟨fun b => ?_, h.plans, fun hps b => ?_⟩
    · have b' := h.bound b
      refine { b' with ring := ?_, slotWindows := ?_, windowMemory := WindowMark.spend_bound b'.windowMemory, field := ?_ }
      · simpa using hroom b
      · intro s hs
        rw [List.mem_append, List.mem_singleton] at hs
        obtain hs | rfl := hs
        · exact b'.slotWindows s hs
        · exact b'.windowMemory
      · intro f hf
        obtain rfl := Option.some.inj hf
        exact ⟨le_refl _, Nat.zero_le _⟩
    · have b' := h.output hps b
      refine { b' with slots := ?_ }
      intro s hs
      rw [List.mem_append, List.mem_singleton] at hs
      obtain hs | rfl := hs
      · exact b'.slots s hs
      · exact b'.context x hx

theorem Channel.enterField_gen (ch : Channel) (seq : Seq) (identity : Identity) (count : Option Count) :
    (ch.enterField seq identity count).gen = ch.gen := by
  unfold Channel.enterField
  split <;> rfl

/-- A field start up to the reference frame start that it is. -/
def Device.takeInField (c : Chan) (label : Label) (d : Device) : Device :=
  (d.takeInSteps c label).modChan c fun ch =>
    ch.enterField (d.chan c).intake.nextSeq label.identity (labelCount (d.chan c).settings label)

theorem Device.takeIn_eq_field (c : Chan) (label : Label) (d : Device) :
    d.takeIn c label = (d.takeInField c label).inputStart c := d.takeIn_eq_steps c label

theorem evolves_takeInField (c : Chan) (label : Label) (d : Device) :
    Evolves c d (d.takeInField c label) ∧ ((d.takeInField c label).chan c).gen = (d.chan c).gen := by
  obtain ⟨h, hroom⟩ := calm_takeInSteps c label d
  unfold Device.takeInField
  rw [Device.chan_modChan_self, Channel.enterField_gen]
  refine ⟨⟨h.works.trans (.modChan _ c _), ?_⟩, h.gen⟩
  rw [Device.chan_modChan_self]
  exact h.keeps.enterField (fun b => Nat.le_trans (Nat.succ_le_succ hroom) (makeRoom_length b.ring)) _ _ _

/-! ## What the controller does (R142 to R149) -/

theorem Channel.reset_bound (t : Ticks) : (Channel.reset t).Bound := by
  constructor <;>
    simp [Channel.reset, Intake.reset, Reconstructor.reset, Tracker.reset, Synchroniser.reset, Settings.reset, Config.holdMax]

theorem Channel.reset_legalOutput (t : Ticks) : (Channel.reset t).LegalOutput := by
  refine ⟨?_, ?_, ?_, ?_, black_legal⟩ <;> simp [Channel.reset, Intake.reset, Reconstructor.reset, Synchroniser.reset]

theorem Channel.Keeps.reset {ps : Vector (Option Profile) 31} (ch : Channel) (t : Ticks) : ch.Keeps ps (.reset t) :=
  ⟨fun _ => Channel.reset_bound t, fun _ => ⟨Plan.empty_ordered, Plan.empty_ordered⟩,
    fun _ _ => Channel.reset_legalOutput t⟩

theorem Channel.Keeps.started {ps : Vector (Option Profile) 31} (ch : Channel) (now : Ticks) :
    ch.Keeps ps (ch.started now) := by
  refine ⟨fun b => ?_, fun h => h, fun _ b => ⟨?_, ?_, ?_, ?_, b.onAir⟩⟩
  · refine ⟨?_, ?_, ?_, ?_, b.history, b.unusable, ?_, ?_, ?_, ?_, b.holdLimit, b.defaultProfile⟩ <;>
      simp [Channel.started, Intake.reset, Reconstructor.reset, Synchroniser.reset]
  all_goals simp [Channel.started, Intake.reset, Reconstructor.reset, Synchroniser.reset]

theorem evolves_startChannel (c : Chan) (d : Device) : Evolves c d (d.startChannel c) :=
  (Evolves.modChan (.started _ _)).trans (calm_setTracker (fun _ => Tracker.reset_bound) _).toEvolves

theorem Channel.Keeps.configured {ps : Vector (Option Profile) 31} (ch : Channel) {s : Settings}
    (h : s.holdLimit ≤ Config.holdMax ∧ s.defaultProfile ≤ 31) : ch.Keeps ps { ch with state := .ready, settings := s } :=
  ⟨fun b => { b with holdLimit := h.1, defaultProfile := h.2 }, fun h => h, fun _ b => { b with }⟩

theorem evolves_configure {s : Settings} (h : s.holdLimit ≤ Config.holdMax ∧ s.defaultProfile ≤ 31) (c : Chan)
    (d : Device) : Evolves c d (d.configure c s) := by
  have hstored : Evolves c d (d.modChan c fun ch => { ch with state := .ready, settings := s }) :=
    .modChan (.configured _ h)
  unfold Device.configure
  dsimp only
  split
  · exact hstored.trans (evolves_reconfigureTiming c _)
  · exact hstored

/-- A channel whose state alone changes. -/
theorem Channel.Keeps.state {ps : Vector (Option Profile) 31} (ch : Channel) (s : ChanState) :
    ch.Keeps ps { ch with state := s } := ⟨fun b => { b with }, fun h => h, fun _ b => { b with }⟩

/-- The field timeout alone changes. -/
theorem Channel.Keeps.timeout {ps : Vector (Option Profile) 31} (ch : Channel) (t : Option Ticks) :
    ch.Keeps ps { ch with intake := { ch.intake with timeout := t } } :=
  ⟨fun b => { b with }, fun h => h, fun _ b => { b with }⟩

/-- A stop up to the settling of what is pending (R145). -/
def Device.stopUnsettled (c : Chan) (d : Device) : Device :=
  ((d.modChan c fun ch => { ch with state := .stopping }).dropField c).modChan c fun ch =>
    { ch with intake := { ch.intake with timeout := none } }

theorem Device.stopChannel_eq (c : Chan) (d : Device) :
    d.stopChannel c = if (d.chan c).state = .running then (d.stopUnsettled c).leaveRunning c else d.stopUnsettled c := by
  unfold Device.stopChannel Device.stopUnsettled
  dsimp only
  split <;> split <;> simp_all

theorem evolves_stopUnsettled (c : Chan) (d : Device) : Evolves c d (d.stopUnsettled c) :=
  ((Evolves.modChan (.state _ _)).trans (calm_dropField c _).toEvolves).trans (.modChan (.timeout _ _))

theorem evolves_stopChannel (c : Chan) (d : Device) : Evolves c d (d.stopChannel c) := by
  rw [Device.stopChannel_eq]
  split
  · exact (evolves_stopUnsettled c d).trans (calm_leaveRunning c _).toEvolves
  · exact evolves_stopUnsettled c d

theorem calm_foldl {α : Type} (c : Chan) (f : Device → α → Device) (h : ∀ d a, Calm c d (f d a)) (as : List α)
    (d : Device) : Calm c d (as.foldl f d) := by
  induction as generalizing d with
  | nil => exact .refl c d
  | cons a as ih => exact (h d a).trans (ih _)

theorem calm_abortOps (c : Chan) (d : Device) : Calm c d (d.abortOps c) :=
  calm_foldl c (fun d (o : Operation) => d.settleOp o.tag c .aborted none .none)
    (fun d o => .settleOp c o.tag c _ _ _ d) _ d

/-- What is pending after operations of several tags have been settled on a channel carries none of those tags. -/
theorem Device.mem_pendingOps_settleAll (os : List Operation) (flag : DoneFlag) (hf : flag ≠ .clear) (d : Device)
    {k : OpName} {o : Operation}
    (h : o ∈ (os.foldl (fun d o => d.settleOp o.tag c flag none .none) d).pendingOps k c) :
    ∃ q ∈ d.pendingOps k c, q.tag = o.tag ∧ ∀ x ∈ os, x.tag ≠ o.tag := by
  induction os generalizing d with
  | nil => exact ⟨o, h, rfl, by simp⟩
  | cons a os ih =>
    obtain ⟨q, hq, hqt, hos⟩ := ih _ h
    obtain ⟨r, hr, hrt, hne⟩ := Device.mem_pendingOps_settleOp hf hq
    refine ⟨r, hr, hrt.trans hqt, ?_⟩
    rw [List.forall_mem_cons]
    exact ⟨fun e => hne (hqt.trans e.symm) rfl, hos⟩

/-- Once every operation pending on a channel has been aborted there, nothing is pending there (R149, R156). -/
theorem Device.isPending_abortOps (c : Chan) (d : Device) (k : OpName) : (d.abortOps c).isPending k c = false := by
  rw [Device.isPending_eq_false, List.eq_nil_iff_forall_not_mem]
  intro o ho
  obtain ⟨q, hq, hqt, hne⟩ := Device.mem_pendingOps_settleAll _ _ (by decide) d ho
  obtain ⟨hmem, _, hp⟩ := Device.mem_pendingOps.1 hq
  exact hne q (List.mem_filter.2 ⟨hmem, hp⟩) hqt

/-- A reset of one channel up to the end of its operations (R148). -/
def Device.resetBlocks (c : Chan) (d : Device) : Device :=
  (channelSources c).foldl (fun d src => d.lower src) (d.modChan c fun ch => Channel.reset ch.gen.lastOut)

theorem Device.resetChannel_eq (c : Chan) (d : Device) : d.resetChannel c = (d.resetBlocks c).abortOps c := rfl

theorem evolves_resetChannel (c : Chan) (d : Device) : Evolves c d (d.resetChannel c) :=
  ((Evolves.modChan (.reset _ _)).trans (calm_foldl c _ (fun _ _ => .lower c _ _) _ _).toEvolves).trans
    (calm_abortOps c _).toEvolves

theorem Device.resetChannel_chan (c : Chan) (d : Device) :
    (d.resetChannel c).chan c = Channel.reset (d.chan c).gen.lastOut := by
  have hlower : ∀ (srcs : List Source) (d : Device), (srcs.foldl (fun d src => d.lower src) d).chan c = d.chan c := by
    intro srcs
    induction srcs with
    | nil => exact fun _ => rfl
    | cons s srcs ih => exact fun d => ih (d.lower s)
  have hsettle : ∀ (os : List Operation) (d : Device),
      (os.foldl (fun d o => d.settleOp o.tag c .aborted none .none) d).chan c = d.chan c := by
    intro os
    induction os with
    | nil => exact fun _ => rfl
    | cons o os ih => exact fun d => (ih _).trans (d.settleOp_chan ..)
  rw [Device.resetChannel_eq, Device.abortOps, hsettle, Device.resetBlocks, hlower, Device.chan_modChan_self]

end Sys2Proof.Machine
end


section
/-! PROOFS. What every event keeps of the whole part: the bounds, the plans, the legal output and the parts of the
generators. -/

namespace Sys2Proof.Machine

/-! ## What a change of the part keeps -/

/-- What every change of the part keeps of its channels, its profile table and its dropout log. -/
structure Device.Keeping (d d' : Device) : Prop where
  bound : d.ChannelBound → d'.ChannelBound
  plans : d.PlansOrdered → d'.PlansOrdered
  output : d.LegalOutput → d'.LegalOutput
  timing : d.TimingFits → d'.TimingFits
  log : d.LogBound → d'.LogBound

/-- A change that besides keeps the places of the command FIFO and of the operations table, and adds at most `n` to the
replies held and the operations in flight. -/
structure Device.Effect (d : Device) (n : Nat) (d' : Device) : Prop extends Device.Keeping d d' where
  fifo : d.fifo.length ≤ Config.fifoDepth → d'.fifo.length ≤ Config.fifoDepth
  slots : d.ops.length ≤ Config.operationSlots → d'.ops.length ≤ Config.operationSlots
  flow : d'.ops.length + d'.replies.length ≤ d.ops.length + d.replies.length + n

variable {c : Chan} {d d' d'' : Device}

theorem Device.Keeping.trans (h : d.Keeping d') (h' : d'.Keeping d'') : d.Keeping d'' :=
  ⟨fun x => h'.bound (h.bound x), fun x => h'.plans (h.plans x), fun x => h'.output (h.output x),
    fun x => h'.timing (h.timing x), fun x => h'.log (h.log x)⟩

theorem Device.Effect.trans {n m : Nat} (h : d.Effect n d') (h' : d'.Effect m d'') : d.Effect (n + m) d'' :=
  ⟨h.toKeeping.trans h'.toKeeping, fun x => h'.fifo (h.fifo x), fun x => h'.slots (h.slots x),
    h'.flow.trans ((Nat.add_le_add_right h.flow m).trans_eq (Nat.add_assoc ..))⟩

theorem Device.Effect.mono {n m : Nat} (h : d.Effect n d') (hnm : n ≤ m) : d.Effect m d' :=
  { h with flow := h.flow.trans (Nat.add_le_add_left hnm _) }

/-- A change that reaches no channel, no profile and no record of the log. -/
theorem Device.Keeping.of_chans (hc : d'.chans = d.chans) (hp : d'.profiles = d.profiles) (hl : d'.dropLog = d.dropLog)
    (hw : d'.watermark = d.watermark) : d.Keeping d' := by
  have hch : ∀ c, d'.chan c = d.chan c := fun c => Device.chan_congr hc c
  constructor
  · simp only [Device.ChannelBound, hch, imp_self]
  · simp only [Device.PlansOrdered, hch, imp_self]
  · simp only [Device.LegalOutput, hch, hp, imp_self]
  · simp only [Device.TimingFits, hch, imp_self]
  · simp only [Device.LogBound, hl, hw, imp_self]

/-- A change that keeps the shell, the channels, the operations and the dropout log. -/
theorem Device.Effect.of_shell {n : Nat} (hs : d'.shell = d.shell) (hc : d'.chans = d.chans) (hl : d'.dropLog = d.dropLog)
    (ho : d'.ops = d.ops) (hr : d'.replies.length ≤ d.replies.length + n) : d.Effect n d' := by
  refine ⟨.of_chans hc (Device.profiles_of_shell hs) hl (Device.watermark_of_shell hs), ?_, ?_, ?_⟩
  · rw [Device.fifo_of_shell hs]
    exact id
  · rw [ho]
    exact id
  · rw [ho]
    omega

theorem Device.Effect.refl (d : Device) : d.Effect 0 d := .of_shell rfl rfl rfl rfl (le_refl _)

theorem Device.Effect.choose (d : Device) : d.Effect 0 d.choose :=
  .of_shell (by simp) (by simp) (by simp) (by simp) d.choose_replies_le

theorem Device.Effect.raise (src : Source) (detail : Detail) (d : Device) : d.Effect 0 (d.raise src detail) :=
  .of_shell (by simp) (by simp) (by simp) (by simp) (d.raise_replies_le src detail)

theorem Device.Effect.answer (tag kind : Byte) (st : Status) (rs : List Byte) (d : Device) :
    d.Effect 1 (d.answer tag kind st rs) :=
  .of_shell (by simp) (by simp) (by simp) (by simp) (d.enterReply_replies_le _)

theorem Device.Effect.foldl {α : Type} {f : Device → α → Device} (h : ∀ (d : Device) (a : α), d.Effect 0 (f d a))
    (as : List α) (d : Device) : d.Effect 0 (as.foldl f d) := by
  induction as generalizing d with
  | nil => exact .refl d
  | cons a as ih => exact (h d a).trans (ih _)

/-! ## Work on one channel -/

/-- What holds of every channel holds after work on one, if it does on that one. -/
theorem Works.forall_chan (h : Works c d d') {p : Channel → Prop} (hp : ∀ k, p (d.chan k)) (hc : p (d'.chan c)) :
    ∀ k, p (d'.chan k) := by
  intro k
  by_cases e : k = c
  · exact e ▸ hc
  · exact h.others k e ▸ hp k

theorem Evolves.effect (h : Evolves c d d') (hg : (d.chan c).gen.Fits → (d'.chan c).gen.Fits) : d.Effect 0 d' where
  bound b := h.works.forall_chan b (h.keeps.bound (b c))
  plans b := h.works.forall_chan (p := Channel.PlansOrdered) b (h.keeps.plans (b c))
  output b :=
    ⟨h.works.keepsRest.profiles ▸ b.1, h.works.forall_chan (p := Channel.LegalOutput) b.2 (h.keeps.output b.1 (b.2 c))⟩
  timing b := h.works.forall_chan (p := fun ch => ch.gen.Fits) b (hg (b c))
  log b := ⟨h.works.log b.1, h.works.keepsRest.watermark ▸ b.2⟩
  fifo b := h.works.keepsRest.fifo ▸ b
  slots b := h.works.ops.trans b
  flow := h.works.flow

/-- Work that leaves the state and the kept period of the generator. -/
theorem Evolves.effect_of_gen (h : Evolves c d d') (hs : (d'.chan c).gen.state = (d.chan c).gen.state)
    (hk : (d'.chan c).gen.kept = (d.chan c).gen.kept) : d.Effect 0 d' :=
  h.effect (by simp only [Generator.Fits, hs, hk, imp_self])

theorem Calm.effect (h : Calm c d d') : d.Effect 0 d' := h.toEvolves.effect_of_gen (by rw [h.gen]) (by rw [h.gen])

theorem effect_outputFrame (c : Chan) (d : Device) : d.Effect 0 (d.outputFrame c) :=
  (evolves_outputFrame c d).effect_of_gen (by rw [Device.outputFrame_gen]) (by rw [Device.outputFrame_gen])

/-! ## Output timing (R124 to R131) -/

theorem Generator.fits_settled_iff {g : Generator} {p : Settled} (h : g.state = .settled p) :
    g.Fits ↔ (p ≠ .free → g.kept.isSome) := by
  cases p <;> simp [Generator.Fits, h]

theorem Generator.fits_acquire_iff {g : Generator} {a : Acquisition} (h : g.state = .acquire a) :
    g.Fits ↔ a.run ≤ 8 ∧ (a.prior ≠ .free → a.priorKept.isSome) ∧
      (a.commanded = false → a.prior = .holdover a.target) := by
  simp [Generator.Fits, h]

/-- An interval within tolerance is there. -/
theorem isSome_of_withinBand {y : System} {i : Option Ticks} (h : withinBand y i = true) : i.isSome := by
  cases i with
  | none => simp [withinBand] at h
  | some _ => rfl

/-- A run that reaches eight was reached by an interval within tolerance (R128). -/
theorem Acquisition.within_of_eight_le {a : Acquisition} {b : Bool} (h : 8 ≤ a.nextRun b) : b = true := by
  unfold Acquisition.nextRun at h
  split at h
  · simp_all
  · omega

/-- An acquisition whose LOCKED prior state takes an interval within tolerance as its period (R130). -/
theorem Acquisition.priorKept_fits {a : Acquisition} {y : System} {i : Option Ticks} (src : RefSource)
    (h : a.prior ≠ .free → a.priorKept.isSome) :
    let b := if decide (a.prior = .locked src) && withinBand y i then { a with priorKept := i } else a
    (b.prior ≠ .free → b.priorKept.isSome) ∧ b.prior = a.prior ∧ b.target = a.target ∧ b.commanded = a.commanded ∧
      b.run = a.run := by
  dsimp only
  split
  · rename_i hb
    exact ⟨fun _ => isSome_of_withinBand ((Bool.and_eq_true _ _).mp hb).2, rfl, rfl, rfl, rfl⟩
  · exact ⟨h, rfl, rfl, rfl, rfl⟩

/-- A reference frame start leaves a generator whose parts go together (R126, R128 to R130). -/
theorem Generator.referred_fits {g : Generator} (h : g.Fits) (y : System) (src : RefSource) (i : Option Ticks)
    (now : Ticks) : (g.referred y src i now).1.Fits := by
  cases hs : g.state with
  | settled p =>
    cases p with
    | free => rwa [Generator.referred_free hs]
    | locked s =>
      rw [Generator.referred_locked hs]
      have hk := (Generator.fits_settled_iff hs).1 h (by simp)
      split
      · refine (Generator.fits_settled_iff (g := { g with kept := if withinBand y i then i else g.kept }) hs).2 fun _ => ?_
        dsimp only
        split
        · exact isSome_of_withinBand ‹_›
        · exact hk
      · exact h
    | holdover s =>
      rw [Generator.referred_holdover hs]
      have hk := (Generator.fits_settled_iff hs).1 h (by simp)
      split
      · exact (Generator.fits_acquire_iff rfl).2 ⟨Nat.one_le_ofNat, fun _ => hk, fun _ => rfl⟩
      · exact h
  | acquire a =>
    obtain ⟨hrun, hprior, hauto⟩ := (Generator.fits_acquire_iff hs).1 h
    rw [Generator.referred_acquire hs]
    obtain ⟨hp, hpr, ht, hc, hr⟩ := Acquisition.priorKept_fits (y := y) (i := i) src hprior
    dsimp only at hp hpr ht hc hr ⊢
    generalize (if decide (a.prior = .locked src) && withinBand y i then
      ({ a with priorKept := i } : Acquisition) else a) = b at *
    have hb : b.commanded = false → b.prior = .holdover b.target := by
      rw [hc, hpr, ht]
      exact hauto
    split
    · split
      · rename_i h8
        exact (Generator.fits_settled_iff rfl).2 fun _ => isSome_of_withinBand (Acquisition.within_of_eight_le h8)
      · rename_i h8
        exact (Generator.fits_acquire_iff (a := { b with run := _, seen := true }) rfl).2 ⟨Nat.le_of_not_le h8, hp, hb⟩
    · exact (Generator.fits_acquire_iff rfl).2 ⟨hr.trans_le hrun, hp, hb⟩

/-- A reference frame start makes of the generator what `Generator.referred` says, and counts from an output frame start
that it makes. -/
theorem Device.referenceStart_gen (c : Chan) (src : RefSource) (interval : Option Ticks) (d : Device) :
    ((d.referenceStart c src interval).chan c).gen =
      let ch := d.chan c
      let referred := ch.gen.referred ch.settings.system src interval d.now
      { referred.1 with
        lastOut := if referred.2 = true ∧ ch.gen.lastOut + ch.settings.system.guard ≤ d.now then d.now
          else referred.1.lastOut } := by
  rw [Device.referenceStart_chan]
  dsimp only
  split
  · rw [Device.outputFrame_gen, Device.chan_setChan_self]
    rfl
  · rfl

theorem effect_referenceStart (c : Chan) (src : RefSource) (i : Option Ticks) (d : Device) :
    d.Effect 0 (d.referenceStart c src i) := by
  refine (evolves_referenceStart c src i d).effect fun h => ?_
  rw [Device.referenceStart_gen]
  exact Generator.referred_fits h _ _ _ _

theorem effect_inputStart (c : Chan) (d : Device) : d.Effect 0 (d.inputStart c) := by
  refine Device.Effect.trans ?_ (effect_referenceStart c _ _ _)
  exact (Evolves.modChan (c := c) (.gen _ _)).effect_of_gen (by simp) (by simp)

theorem effect_houseStart (d : Device) : d.Effect 0 d.houseStart := by
  have h : d.Effect 0 { d with
      houseFamily := familyOf (d.lastHouse.map fun last => d.now - last), lastHouse := some d.now } :=
    ⟨.of_chans rfl rfl rfl rfl, id, id, le_refl _⟩
  exact h.trans (.foldl (fun d c => effect_referenceStart c _ _ d) _ _)

theorem effect_loseReference (c : Chan) (d : Device) : d.Effect 0 (d.loseReference c) := by
  refine (evolves_loseReference c d).effect fun h => ?_
  unfold Device.loseReference
  split
  · rename_i s hs
    rw [(calm_raiseTiming c _ _).gen, Device.outputFrame_gen]
    refine (Generator.fits_settled_iff (p := .holdover s) (by simp [Device.setTiming])).2 fun _ => ?_
    simpa [Device.setTiming] using (Generator.fits_settled_iff hs).1 h (by simp)
  · exact h

theorem effect_losePriorReference (c : Chan) (d : Device) : d.Effect 0 (d.losePriorReference c) := by
  refine (evolves_losePriorReference c d).effect fun h => ?_
  unfold Device.losePriorReference
  split
  · rename_i a hs
    obtain ⟨hrun, hprior, hauto⟩ := (Generator.fits_acquire_iff hs).1 h
    split
    · rename_i s hp
      rw [Device.outputFrame_gen]
      refine (Generator.fits_acquire_iff (a := { a with prior := .holdover s }) (by simp [Device.setTiming])).2
        ⟨hrun, fun _ => hprior (by simp [hp]), fun hc => ?_⟩
      rw [hp] at hauto
      exact absurd (hauto hc) (by simp)
    · exact h
  · exact h

/-- The end of the acquisition window goes back to the prior state and the period it remembers (R129). -/
theorem Device.failAcquisition_gen {a : Acquisition} (h : (d.chan c).gen.state = .acquire a) :
    ((d.failAcquisition c).chan c).gen = { (d.chan c).gen with state := .settled a.prior, kept := a.priorKept } := by
  unfold Device.failAcquisition
  simp only [h]
  split
  · rw [(calm_settleTiming c _ _).gen, (calm_raiseTiming c _ _).gen]
    simp [Device.setTiming, Device.keepPeriod]
  · rw [(calm_raiseTiming c _ _).gen]
    simp [Device.setTiming, Device.keepPeriod]

theorem Device.failAcquisition_of_settled {p : Settled} (h : (d.chan c).gen.state = .settled p) :
    d.failAcquisition c = d := by
  unfold Device.failAcquisition
  simp only [h]

theorem effect_failAcquisition (c : Chan) (d : Device) : d.Effect 0 (d.failAcquisition c) := by
  cases hs : (d.chan c).gen.state with
  | settled p =>
    rw [Device.failAcquisition_of_settled hs]
    exact .refl d
  | acquire a =>
    refine (evolves_failAcquisition c d).effect fun h => ?_
    obtain ⟨_, hprior, _⟩ := (Generator.fits_acquire_iff hs).1 h
    rw [Device.failAcquisition_gen hs]
    exact (Generator.fits_settled_iff rfl).2 hprior

/-! ## Fields (R1 to R17) -/

theorem effect_declareLoss (c : Chan) (why : LossReason) (d : Device) : d.Effect 0 (d.declareLoss c why) :=
  (evolves_declareLoss c why d).effect_of_gen (by rw [Device.declareLoss_gen]) (by rw [Device.declareLoss_gen])

theorem effect_timeoutExpires (c : Chan) (d : Device) : d.Effect 0 (d.timeoutExpires c) := by
  unfold Device.timeoutExpires
  split
  · exact effect_declareLoss c _ d
  · exact .refl d

theorem effect_takeIn (c : Chan) (label : Label) (d : Device) : d.Effect 0 (d.takeIn c label) := by
  obtain ⟨h, hg⟩ := evolves_takeInField c label d
  rw [Device.takeIn_eq_field]
  exact (h.effect_of_gen (by rw [hg]) (by rw [hg])).trans (effect_inputStart c _)

theorem effect_endHolding (c : Chan) (d : Device) : d.Effect 0 (d.endHolding c) := by
  have hheld : Evolves c d (d.modChan c fun ch =>
      { ch with
        state := .running
        intake := { ch.intake with input := .normal }
        sync := { ch.sync with hold := 0, awaited := true } }) :=
    .modChan ⟨fun b => { b with hold := Nat.zero_le _ }, fun h => h, fun _ b => { b with }⟩
  exact (hheld.effect_of_gen (by simp) (by simp)).trans (.raise _ _ _)

theorem calm_wrongWhileHolding (c : Chan) (d : Device) : Calm c d (d.wrongWhileHolding c) := by
  have h : Calm c d (d.modChan c fun ch => { ch with intake := { ch.intake with input := .wrongStandard } }) :=
    .modChan ⟨fun b => { b with }, fun h => h, fun _ b => { b with }⟩ rfl rfl (le_refl _)
  unfold Device.wrongWhileHolding
  split
  · exact h.trans (.raise c _ _ _)
  · exact .refl c d

theorem effect_fieldStart (c : Chan) (label : Label) (d : Device) : d.Effect 0 (d.fieldStart c label) := by
  unfold Device.fieldStart
  split
  · dsimp only
    split
    · exact (calm_endField c d).effect.trans (effect_takeIn c label _)
    · exact (calm_endField c d).effect.trans (effect_declareLoss c _ _)
  · split
    · exact (effect_endHolding c d).trans (effect_takeIn c label _)
    · exact (calm_wrongWhileHolding c d).effect
  all_goals exact .refl d

theorem effect_lineArrives (c : Chan) (line : Line) (d : Device) : d.Effect 0 (d.lineArrives c line) := by
  unfold Device.lineArrives
  split
  · exact (calm_intakeLine c line d).effect
  · exact .refl d

theorem effect_fieldEnds (field : EndedField) (d : Device) : d.Effect 0 (d.fieldEnds field) := by
  unfold Device.fieldEnds
  split
  · split
    · exact (calm_endField _ d).effect
    · exact .refl d
  · exact .refl d

/-! ## Resets (R181) -/

theorem Generator.reset_fits (t : Ticks) : (Generator.reset t).Fits := trivial

/-- A part whose channels are reset, and whose tables are emptied or left. -/
theorem Device.Keeping.of_reset {t : Ticks} (hc : d'.chans = .replicate 4 (Channel.reset t))
    (hp : d'.profiles = d.profiles ∨ d'.profiles = .replicate 31 none) (hl : d.LogBound → d'.LogBound) : d.Keeping d' := by
  have hch : ∀ c, d'.chan c = Channel.reset t := fun c => by simp [Device.chan, hc]
  refine ⟨fun b c => ?_, fun b c => ?_, fun b => ⟨?_, fun c => ?_⟩, fun b c => ?_, hl⟩
  · rw [hch]
    exact (Channel.Keeps.reset (ps := d.profiles) _ t).bound (b c)
  · rw [hch]
    exact (Channel.Keeps.reset (ps := d.profiles) _ t).plans (b c)
  · obtain hp | hp := hp
    · exact hp ▸ b.1
    · rw [hp]
      intro p hmem q hq
      simp [hq] at hmem
  · rw [hch]
    exact (Channel.Keeps.reset _ t).output b.1 (b.2 c)
  · rw [hch]
    exact Generator.reset_fits t

/-- The queues and tables of a part that is held in reset are empty. -/
theorem Device.Effect.of_held (hc : d'.chans = .replicate 4 (Channel.reset d.now)) (hp : d'.profiles = .replicate 31 none)
    (hl : d'.dropLog = [] ∧ d'.watermark = 64) (hq : d'.fifo = [] ∧ d'.ops = [] ∧ d'.replies = []) : d.Effect 0 d' := by
  obtain ⟨hlog, hmark⟩ := hl
  obtain ⟨hfifo, hops, hreplies⟩ := hq
  refine ⟨.of_reset hc (.inr hp) fun _ => ?_, fun _ => ?_, fun _ => ?_, ?_⟩
  · rw [Device.LogBound, hlog, hmark]
    decide
  · simp [hfifo]
  · simp [hops]
  · simp [hops, hreplies]

theorem effect_beginReset (d : Device) : d.Effect 0 d.beginReset := .of_held rfl rfl ⟨rfl, rfl⟩ ⟨rfl, rfl, rfl⟩
theorem effect_supplyFails (d : Device) : d.Effect 0 d.supplyFails := .of_held rfl rfl ⟨rfl, rfl⟩ ⟨rfl, rfl, rfl⟩
theorem effect_pinFalls (d : Device) : d.Effect 0 d.pinFalls := .of_held rfl rfl ⟨rfl, rfl⟩ ⟨rfl, rfl, rfl⟩

theorem effect_endReset (cause : ResetCause) (d : Device) : d.Effect 0 (d.endReset cause) :=
  ⟨.of_reset rfl (.inl rfl) id, id, id, le_refl _⟩

theorem effect_commandReset (d : Device) : d.Effect 0 d.commandReset :=
  (effect_beginReset d).trans (effect_endReset .command _)

theorem effect_supplyReturns (s1 s0 : Bool) (d : Device) : d.Effect 0 (d.supplyReturns s1 s0) := by
  unfold Device.supplyReturns
  split
  · exact .refl d
  · dsimp only
    split
    · exact ⟨.of_chans rfl rfl rfl rfl, id, id, le_refl _⟩
    · exact ⟨.of_reset rfl (.inl rfl) id, id, id, le_refl _⟩

theorem effect_pinRises (s1 s0 : Bool) (d : Device) : d.Effect 0 (d.pinRises s1 s0) := by
  unfold Device.pinRises
  split
  · dsimp only
    split
    · exact ⟨.of_reset rfl (.inl rfl) id, id, id, le_refl _⟩
    · exact ⟨.of_chans rfl rfl rfl rfl, id, id, le_refl _⟩
  · exact .refl d

end Sys2Proof.Machine
end


section
/-! PROOFS. What every command keeps, and from it what every step keeps. -/

namespace Sys2Proof.Machine

variable {c : Chan} {d d' : Device}

/-! ## The checks before a command's effect (R153, R163) -/

theorem effect_unlessTagged {act : Device → Device} (h : d.Effect 1 (act d)) (tag kind : Byte) :
    d.Effect 1 (d.unlessTagged tag kind act) := by
  unfold Device.unlessTagged
  split
  · exact .answer ..
  · exact h

theorem effect_unlessFull {act : Device → Device} (h : d.ops.length < Config.operationSlots → d.Effect 1 (act d))
    (tag kind : Byte) : d.Effect 1 (d.unlessFull tag kind act) := by
  unfold Device.unlessFull
  split
  · exact .answer ..
  · split
    · exact .answer ..
    · rename_i hfull
      exact h (by simpa [Device.slotsFull] using hfull)

theorem effect_withChannel {act : Chan → Device → Device} (h : ∀ c, d.Effect 1 (act c d)) (tag kind : Byte)
    (p : List Byte) : d.Effect 1 (d.withChannel tag kind p act) := by
  unfold Device.withChannel
  split
  · exact .answer ..
  · split
    · exact .answer ..
    · exact h _

/-- A command that does something and answers. -/
theorem Device.Effect.answered (h : d.Effect 0 d') (tag kind : Byte) (st : Status) (rs : List Byte) :
    d.Effect 1 (d'.answer tag kind st rs) := h.trans (.answer ..)

theorem Device.Effect.takeSlot (h : d.ops.length < Config.operationSlots) (tag : Byte) (k : OpKind) (ts : List Chan) :
    d.Effect 1 (d.takeSlot tag k ts) :=
  ⟨.of_chans rfl rfl rfl rfl, id, fun _ => by simpa using h, by simp only [Device.takeSlot_ops_length]; exact (Nat.add_right_comm ..).le⟩

/-- A change of the parts that no invariant speaks of. -/
theorem Device.Effect.of_parts (hc : d'.chans = d.chans) (hp : d'.profiles = d.profiles) (hl : d'.dropLog = d.dropLog)
    (hw : d'.watermark = d.watermark) (hf : d'.fifo = d.fifo) (ho : d'.ops = d.ops) (hr : d'.replies = d.replies) :
    d.Effect 0 d' :=
  ⟨.of_chans hc hp hl hw, fun h => hf ▸ h, fun h => ho ▸ h, by rw [ho, hr]; exact le_refl _⟩

/-! ## Channels (R142 to R151) -/

theorem Generator.reconfigure_fits {g : Generator} (h : g.Fits) (y : System) (now : Ticks) : (g.reconfigure y now).Fits := by
  unfold Generator.reconfigure
  split
  · rename_i hs
    exact (Generator.fits_settled_iff (g := { g with kept := g.kept.map fun _ => y.period }) hs).2 fun h => absurd rfl h
  · exact (Generator.fits_settled_iff rfl).2 fun _ => rfl
  · rename_i s hs
    exact (Generator.fits_settled_iff (g := { g with kept := some y.period }) hs).2 fun _ => rfl
  · rename_i a hs
    obtain ⟨_, _, hauto⟩ := (Generator.fits_acquire_iff hs).1 h
    rw [Generator.fits_acquire_iff rfl]
    refine ⟨Nat.zero_le _, ?_, fun hc => ?_⟩
    · cases hp : a.prior <;> simp
    · have hp := hauto hc
      simp [hp]

theorem Device.configure_gen (c : Chan) (s : Settings) (d : Device) :
    ((d.configure c s).chan c).gen =
      if (d.chan c).settings.system ≠ s.system then (d.chan c).gen.reconfigure s.system d.now else (d.chan c).gen := by
  unfold Device.configure
  dsimp only
  by_cases h : (d.chan c).settings.system = s.system
  · simp [h]
  · simp only [ne_eq, h, not_false_eq_true, decide_true, if_true]
    unfold Device.reconfigureTiming
    dsimp only
    split <;> simp [Device.raiseTiming]

theorem effect_configure {s : Settings} (h : s.holdLimit ≤ Config.holdMax ∧ s.defaultProfile ≤ 31) (c : Chan)
    (d : Device) : d.Effect 0 (d.configure c s) := by
  refine (evolves_configure h c d).effect fun hg => ?_
  rw [Device.configure_gen]
  split
  · exact Generator.reconfigure_fits hg _ _
  · exact hg

theorem effect_takeChannelConfig (tag : Byte) (p : List Byte) (d : Device) : d.Effect 1 (d.takeChannelConfig tag p) := by
  unfold Device.takeChannelConfig
  split
  · exact .answer ..
  · split
    · split
      · exact .answer ..
      · split
        · exact .answer ..
        · rename_i hid _
          exact effect_unlessTagged ((effect_configure ⟨Nat.min_le_left _ _, Nat.le_of_not_lt hid⟩ _ d).answered ..) ..
    · exact .answer ..

theorem Device.startChannel_gen (c : Chan) (d : Device) : ((d.startChannel c).chan c).gen = (d.chan c).gen := by
  unfold Device.startChannel
  rw [(calm_setTracker (fun _ => Tracker.reset_bound) _).gen]
  simp [Channel.started]

theorem effect_takeChannelStart (tag : Byte) (p : List Byte) (d : Device) : d.Effect 1 (d.takeChannelStart tag p) := by
  refine effect_withChannel (fun c => ?_) ..
  split
  · exact .answer ..
  · refine effect_unlessTagged ?_ ..
    refine Device.Effect.answered ?_ ..
    exact (evolves_startChannel c d).effect_of_gen (by rw [Device.startChannel_gen]) (by rw [Device.startChannel_gen])

theorem Device.stopChannel_gen (c : Chan) (d : Device) : ((d.stopChannel c).chan c).gen = (d.chan c).gen := by
  have h : ((d.stopUnsettled c).chan c).gen = (d.chan c).gen := by
    simp [Device.stopUnsettled, (calm_dropField c _).gen]
  rw [Device.stopChannel_eq]
  split
  · rw [(calm_leaveRunning c _).gen, h]
  · exact h

theorem effect_stopChannel (c : Chan) (d : Device) : d.Effect 0 (d.stopChannel c) :=
  (evolves_stopChannel c d).effect_of_gen (by rw [Device.stopChannel_gen]) (by rw [Device.stopChannel_gen])

theorem effect_takeChannelStop (tag : Byte) (p : List Byte) (d : Device) : d.Effect 1 (d.takeChannelStop tag p) := by
  refine effect_withChannel (fun c => ?_) ..
  split
  · exact .answer ..
  · exact effect_unlessFull (fun h => (Device.Effect.takeSlot h ..).trans (effect_stopChannel c _)) ..

theorem effect_takeChannelReset (tag : Byte) (p : List Byte) (d : Device) : d.Effect 1 (d.takeChannelReset tag p) := by
  refine effect_withChannel (fun c => ?_) ..
  refine effect_unlessTagged ?_ ..
  refine Device.Effect.answered ?_ ..
  refine (evolves_resetChannel c d).effect fun _ => ?_
  rw [Device.resetChannel_chan]
  exact Generator.reset_fits _

theorem effect_takeChannelStatus (tag : Byte) (p : List Byte) (d : Device) : d.Effect 1 (d.takeChannelStatus tag p) := by
  refine effect_withChannel (fun c => ?_) ..
  refine effect_unlessTagged ?_ ..
  exact .answer ..

theorem calm_setFreeze (c : Chan) (on : Bool) (d : Device) : Calm c d (d.setFreeze c on) := by
  refine .modChan ?_ rfl rfl (le_refl _)
  exact .sync (fun b => ⟨b.queue, b.repeats, b.drops, b.hold⟩) fun b => ⟨b.queue, b.onAir⟩

theorem effect_takeChannelFreeze (tag : Byte) (p : List Byte) (d : Device) : d.Effect 1 (d.takeChannelFreeze tag p) := by
  unfold Device.takeChannelFreeze
  split
  · exact .answer ..
  · split
    · exact effect_unlessTagged ((calm_setFreeze _ _ d).effect.answered ..) ..
    · exact .answer ..

/-! ## Profiles and plans (R27 to R41) -/

theorem legalSample_borderOf (v : Nat) : LegalSample (borderOf v) := by
  unfold LegalSample borderOf clampNat
  rw [BitVec.toNat_ofNat]
  omega

/-- A profile read from a payload has a legal border (R38). -/
theorem profileAt_legal {p : List Byte} {i : Nat} {q : Profile} (h : profileAt p i = some q) : q.border.Legal := by
  unfold profileAt at h
  split at h
  · dsimp only at h
    split at h
    · obtain rfl := Option.some.inj h
      exact ⟨legalSample_borderOf _, legalSample_borderOf _, legalSample_borderOf _⟩
    · simp at h
  · simp at h

theorem setSlot_legal {ps : Vector (Option Profile) 31} (h : LegalProfiles ps) (slot : Nat) {q : Option Profile}
    (hq : ∀ x, q = some x → x.border.Legal) : LegalProfiles (setSlot ps slot q) := by
  intro p hp x hx
  obtain ⟨i, hi, rfl⟩ := List.getElem_of_mem hp
  rw [Vector.getElem_toList] at hx
  simp only [setSlot, Vector.getElem_setIfInBounds] at hx
  split at hx
  · exact hq x hx
  · exact h _ (by simp) x hx

theorem effect_setSlot (slot : Nat) {q : Option Profile} (hq : ∀ x, q = some x → x.border.Legal) (d : Device) :
    d.Effect 0 { d with profiles := setSlot d.profiles slot q } :=
  ⟨⟨id, id, fun h => ⟨setSlot_legal h.1 slot hq, h.2⟩, id, id⟩, id, id, le_refl _⟩

theorem effect_takeProfileWrite (tag : Byte) (p : List Byte) (d : Device) : d.Effect 1 (d.takeProfileWrite tag p) := by
  unfold Device.takeProfileWrite
  split
  · exact .answer ..
  · split
    · exact .answer ..
    · split
      · exact .answer ..
      · rename_i hq
        exact effect_unlessTagged ((effect_setSlot _ (fun x hx => Option.some.inj hx ▸ profileAt_legal hq) d).answered ..) ..

theorem effect_takeProfileRead (tag : Byte) (p : List Byte) (d : Device) : d.Effect 1 (d.takeProfileRead tag p) := by
  unfold Device.takeProfileRead
  split
  · exact .answer ..
  · split
    · exact .answer ..
    · exact effect_unlessTagged (.answer ..) ..

theorem effect_takeProfileErase (tag : Byte) (p : List Byte) (d : Device) : d.Effect 1 (d.takeProfileErase tag p) := by
  unfold Device.takeProfileErase
  split
  · exact .answer ..
  · split
    · exact .answer ..
    · exact effect_unlessTagged ((effect_setSlot _ (fun x hx => by simp at hx) d).answered ..) ..

/-- An entry that passes its checks keeps the plan in order (R27). -/
theorem stageEntry_ordered {y : System} {plan plan' : Plan} {e : EntryFields} (h : plan.Ordered)
    (hok : stageEntry y plan e = .ok plan') : plan'.Ordered := by
  obtain ⟨-, ⟨hself, hlast⟩, hroom, rfl⟩ := ((entryChecksInOrder y plan e).2.2.2 plan').1 hok
  refine ⟨List.length_append.trans_le hroom, by simp, ?_, ?_⟩
  · intro x hx
    rw [List.mem_append, List.mem_singleton] at hx
    obtain hx | rfl := hx
    · exact h.forward x hx
    · exact hself
  · rw [List.pairwise_append]
    refine ⟨h.ascending, List.pairwise_singleton _ _, fun a ha b hb => ?_⟩
    obtain rfl := List.mem_singleton.1 hb
    obtain ⟨rest, last, hrest⟩ : ∃ rest last, plan.entries = rest ++ [last] :=
      ⟨_, _, (List.dropLast_append_getLast (List.ne_nil_of_mem ha)).symm⟩
    have hb := hlast last (by rw [hrest, List.getLast?_concat])
    rw [hrest, List.mem_append, List.mem_singleton] at ha
    obtain ha | rfl := ha
    · have hmem : last ∈ plan.entries := by simp [hrest]
      have hal : a.endCount < last.startCount :=
        (List.pairwise_append.1 (hrest ▸ h.ascending)).2.2 a ha last (List.mem_singleton_self _)
      exact hal.trans_le ((h.forward last hmem).trans hb.le)
    · exact hb

theorem stageEntries_ordered {y : System} {plan : Plan} (h : plan.Ordered) (n : Nat) (es : List EntryFields) :
    (stageEntries y plan n es).1.Ordered := by
  induction es generalizing plan n with
  | nil => exact h
  | cons e es ih =>
    unfold stageEntries
    split
    · rename_i hok
      exact ih (stageEntry_ordered h hok) _
    · exact h

theorem calm_setStaged {plan : Plan} (h : (d.chan c).PlansOrdered → plan.Ordered) : Calm c d (d.setStaged c plan) :=
  .modChan (.reader fun b => ⟨b.1, h b⟩) rfl rfl (le_refl _)

theorem effect_takePlanStageClear (tag : Byte) (p : List Byte) (d : Device) : d.Effect 1 (d.takePlanStageClear tag p) := by
  refine effect_withChannel (fun c => ?_) ..
  split
  · exact .answer ..
  · exact effect_unlessTagged ((calm_setStaged fun _ => Plan.empty_ordered).effect.answered ..) ..

theorem effect_takePlanStageAdd (tag : Byte) (p : List Byte) (d : Device) : d.Effect 1 (d.takePlanStageAdd tag p) := by
  unfold Device.takePlanStageAdd
  split
  · exact .answer ..
  · split
    · exact .answer ..
    · split
      · exact .answer ..
      · dsimp only
        split
        · exact .answer ..
        · exact effect_unlessTagged ((calm_setStaged fun b => stageEntries_ordered b.2 _ _).effect.answered ..) ..

theorem effect_takePlanCommit (tag : Byte) (p : List Byte) (d : Device) : d.Effect 1 (d.takePlanCommit tag p) := by
  refine effect_withChannel (fun c => ?_) ..
  split
  · exact .answer ..
  · refine effect_unlessFull (fun h => ?_) ..
    dsimp only
    split
    · exact .takeSlot h ..
    · exact (Device.Effect.takeSlot h ..).trans (calm_swapPlan c tag _).effect

theorem effect_takePlanRead (tag : Byte) (p : List Byte) (d : Device) : d.Effect 1 (d.takePlanRead tag p) := by
  unfold Device.takePlanRead
  split
  · exact .answer ..
  · split
    · exact .answer ..
    · split
      · exact .answer ..
      · split
        · exact .answer ..
        · exact effect_unlessTagged (.answer ..) ..

/-! ## Refreshes, flushes and timing selects (R47, R102, R127) -/

theorem Device.Effect.completeOp (tag : Byte) (d : Device) : d.Effect 0 (d.completeOp tag) := by
  refine ⟨.of_chans (by simp) (Device.profiles_of_shell (by simp)) (by simp) (Device.watermark_of_shell (by simp)), ?_, ?_,
    d.completeOp_flow tag⟩
  · rw [Device.fifo_of_shell (d.completeOp_shell tag)]
    exact id
  · exact fun h => (d.completeOp_ops_sub tag).length_le.trans h

theorem effect_takeContextRefresh (tag : Byte) (p : List Byte) (d : Device) : d.Effect 1 (d.takeContextRefresh tag p) := by
  unfold Device.takeContextRefresh
  split
  · exact .answer ..
  · split
    · exact .answer ..
    · refine effect_unlessFull (fun h => ?_) ..
      dsimp only
      split
      · exact .answer ..
      · exact ((Device.Effect.takeSlot h ..).trans (.foldl (fun d c => (calm_refreshNow c tag d).effect) _ _)).trans
          (.completeOp tag _)

theorem effect_takeHistoryFlush (tag : Byte) (p : List Byte) (d : Device) : d.Effect 1 (d.takeHistoryFlush tag p) := by
  unfold Device.takeHistoryFlush
  split
  · exact .answer ..
  · split
    · exact .answer ..
    · refine effect_unlessFull (fun h => ?_) ..
      dsimp only
      split
      · exact .answer ..
      · exact (Device.Effect.takeSlot h ..).trans (.foldl (fun d c => (calm_flushNow c _ tag d).effect) _ _)

/-- A change of timing state after which the parts of the generator still go together, with its notice. -/
theorem effect_setTiming_raise {t : TimingState} (h : (d.chan c).gen.Fits → ({ (d.chan c).gen with state := t } : Generator).Fits)
    (r : TimingReason) : d.Effect 0 ((d.setTiming c t).raiseTiming c r) := by
  refine ((evolves_setTiming c t d).trans (calm_raiseTiming c r _).toEvolves).effect fun hg => ?_
  rw [(calm_raiseTiming c r _).gen, Device.setTiming, Device.chan_modChan_self]
  exact h hg

theorem effect_selectInternal (c : Chan) (d : Device) : d.Effect 0 (d.selectInternal c) := by
  unfold Device.selectInternal
  split
  · exact .refl d
  · exact effect_setTiming_raise (fun _ => (Generator.fits_settled_iff (p := .free) rfl).2 fun h => absurd rfl h) _

theorem effect_beginAcquisition {prior : Settled} (h : (d.chan c).gen.state = .settled prior) (target : RefSource) :
    d.Effect 0 (d.beginAcquisition c target prior) := by
  refine effect_setTiming_raise (fun hg => ?_) _
  exact (Generator.fits_acquire_iff rfl).2 ⟨Nat.zero_le _, (Generator.fits_settled_iff h).1 hg, fun h => by simp at h⟩

theorem effect_takeTimingSelect (tag : Byte) (p : List Byte) (d : Device) : d.Effect 1 (d.takeTimingSelect tag p) := by
  unfold Device.takeTimingSelect
  split
  · exact .answer ..
  · split
    · refine effect_unlessFull (fun h => ?_) ..
      split
      · exact .answer ..
      · rename_i hs
        dsimp only
        split
        · exact ((Device.Effect.takeSlot h ..).trans (effect_selectInternal _ _)).trans (calm_settleTiming _ _ _).effect
        · exact (Device.Effect.takeSlot h ..).trans (effect_beginAcquisition (d := d.takeSlot tag .timing [_]) hs _)
        · exact (Device.Effect.takeSlot h ..).trans (effect_beginAcquisition (d := d.takeSlot tag .timing [_]) hs _)
    · exact .answer ..

/-! ## The dropout log, notices and cue lines (R64 to R66, R172 to R180) -/

theorem effect_takeIdentify (tag : Byte) (p : List Byte) (d : Device) : d.Effect 1 (d.takeIdentify tag p) := by
  unfold Device.takeIdentify
  split
  · exact .answer ..
  · exact effect_unlessTagged (.answer ..) ..

theorem effect_takeDroplogRead (tag : Byte) (p : List Byte) (d : Device) : d.Effect 1 (d.takeDroplogRead tag p) := by
  unfold Device.takeDroplogRead
  split
  · exact .answer ..
  · split
    · exact .answer ..
    · refine effect_unlessTagged ?_ ..
      refine Device.Effect.answered ?_ ..
      exact ⟨⟨id, id, id, id, fun h => ⟨(List.drop_sublist _ _).length_le.trans h.1, h.2⟩⟩, id, id, le_refl _⟩

theorem effect_takeDroplogClear (tag : Byte) (p : List Byte) (d : Device) : d.Effect 1 (d.takeDroplogClear tag p) := by
  unfold Device.takeDroplogClear
  split
  · exact .answer ..
  · refine effect_unlessTagged ?_ ..
    refine Device.Effect.answered ?_ ..
    exact ⟨⟨id, id, id, id, fun h => ⟨Nat.zero_le _, h.2⟩⟩, id, id, le_refl _⟩

theorem effect_takeDroplogWatermark (tag : Byte) (p : List Byte) (d : Device) :
    d.Effect 1 (d.takeDroplogWatermark tag p) := by
  unfold Device.takeDroplogWatermark
  split
  · exact .answer ..
  · split
    · exact .answer ..
    · rename_i hmark
      refine effect_unlessTagged ?_ ..
      refine Device.Effect.answered ?_ ..
      refine ⟨⟨id, id, id, id, fun h => ⟨h.1, ?_, Nat.min_le_left _ _⟩⟩, id, id, le_refl _⟩
      exact Nat.le_min.2 ⟨by decide, Nat.one_le_iff_ne_zero.2 hmark⟩

theorem effect_takeNoticeLevel (tag : Byte) (p : List Byte) (d : Device) : d.Effect 1 (d.takeNoticeLevel tag p) := by
  unfold Device.takeNoticeLevel
  split
  · exact .answer ..
  · split
    · exact .answer ..
    · refine effect_unlessTagged ?_ ..
      refine Device.Effect.answered (Device.Effect.trans ?_ (.choose _)) ..
      exact .of_parts rfl rfl rfl rfl rfl rfl rfl

theorem effect_takeNoticeWithdraw (tag : Byte) (p : List Byte) (d : Device) : d.Effect 1 (d.takeNoticeWithdraw tag p) := by
  unfold Device.takeNoticeWithdraw
  split
  · exact .answer ..
  · split
    · exact .answer ..
    · refine effect_unlessTagged ?_ ..
      refine Device.Effect.answered ?_ ..
      exact .of_parts rfl rfl rfl rfl rfl rfl rfl

theorem effect_takeNoticePoll (tag : Byte) (p : List Byte) (d : Device) : d.Effect 1 (d.takeNoticePoll tag p) := by
  unfold Device.takeNoticePoll
  split
  · exact .answer ..
  · refine effect_unlessTagged ?_ ..
    refine Device.Effect.answered ?_ ..
    exact .of_parts rfl rfl rfl rfl rfl rfl rfl

theorem effect_takeCueConfig (tag : Byte) (p : List Byte) (d : Device) : d.Effect 1 (d.takeCueConfig tag p) := by
  unfold Device.takeCueConfig
  split
  · exact .answer ..
  · split
    · split
      · exact .answer ..
      · refine effect_unlessTagged ?_ ..
        refine Device.Effect.answered ?_ ..
        exact .of_parts rfl rfl rfl rfl rfl rfl rfl
    · exact .answer ..

theorem effect_takeCueRead (tag : Byte) (p : List Byte) (d : Device) : d.Effect 1 (d.takeCueRead tag p) := by
  unfold Device.takeCueRead
  split
  · exact .answer ..
  · exact effect_unlessTagged (.answer ..) ..

theorem effect_edgeSince (n : CueNo) (before : Bool) (d : Device) : d.Effect 0 (d.edgeSince n before) := by
  unfold Device.edgeSince
  split
  · unfold Device.activeEdge
    split
    · exact .raise ..
    · refine (Calm.modChan ?_ rfl rfl (le_refl _)).effect
      exact ⟨fun b => { b with }, id, fun _ b => { b with }⟩
    all_goals exact .refl d
  · exact .refl d

theorem effect_setCue (low : Bool) (n : CueNo) (d : Device) : d.Effect 0 (d.setCue low n) := by
  refine Device.Effect.trans (d' := ?_) ?_ (effect_edgeSince n _ _)
  exact .of_parts rfl rfl rfl rfl rfl rfl rfl

theorem effect_takeCueSet (tag : Byte) (p : List Byte) (d : Device) : d.Effect 1 (d.takeCueSet tag p) := by
  unfold Device.takeCueSet
  split
  · exact .answer ..
  · exact effect_unlessTagged ((Device.Effect.foldl (fun d n => effect_setCue _ n d) _ d).answered ..) ..

theorem effect_outsideLevel (n : CueNo) (high : Bool) (d : Device) : d.Effect 0 (d.outsideLevel n high) := by
  refine Device.Effect.trans (d' := ?_) ?_ (effect_edgeSince n _ _)
  exact .of_parts rfl rfl rfl rfl rfl rfl rfl

/-! ## The link (R158 to R165) -/

theorem effect_takeFrame (f : Command) (d : Device) : d.Effect 1 (d.takeFrame f) := by
  unfold Device.takeFrame
  split
  · exact effect_takeIdentify ..
  · exact (effect_commandReset d).mono (Nat.zero_le _)
  · exact effect_takeChannelConfig ..
  · exact effect_takeChannelStart ..
  · exact effect_takeChannelStop ..
  · exact effect_takeChannelReset ..
  · exact effect_takeChannelStatus ..
  · exact effect_takeChannelFreeze ..
  · exact effect_takeProfileWrite ..
  · exact effect_takeProfileRead ..
  · exact effect_takeProfileErase ..
  · exact effect_takePlanStageClear ..
  · exact effect_takePlanStageAdd ..
  · exact effect_takePlanCommit ..
  · exact effect_takePlanRead ..
  · exact effect_takeContextRefresh ..
  · exact effect_takeHistoryFlush ..
  · exact effect_takeTimingSelect ..
  · exact effect_takeDroplogRead ..
  · exact effect_takeDroplogClear ..
  · exact effect_takeDroplogWatermark ..
  · exact effect_takeNoticeLevel ..
  · exact effect_takeNoticeWithdraw ..
  · exact effect_takeNoticePoll ..
  · exact effect_takeCueConfig ..
  · exact effect_takeCueRead ..
  · exact effect_takeCueSet ..
  · exact .answer ..

/-- What every step keeps: the bounds of the queues and tables with the rest. -/
structure Device.Safe (d d' : Device) : Prop extends Device.Keeping d d' where
  flow : d.FlowBound → d'.FlowBound

theorem Device.Safe.trans {d'' : Device} (h : d.Safe d') (h' : d'.Safe d'') : d.Safe d'' :=
  ⟨h.toKeeping.trans h'.toKeeping, fun x => h'.flow (h.flow x)⟩

theorem Device.Effect.safe (h : d.Effect 0 d') : d.Safe d' :=
  ⟨h.toKeeping, fun ⟨hf, ho, hr⟩ => ⟨h.fifo hf, h.slots ho, h.flow.trans hr⟩⟩

theorem Device.Safe.refl (d : Device) : d.Safe d := (Device.Effect.refl d).safe

/-- A frame that the conditions of R162 let the executor take makes at most one more reply or operation. -/
theorem safe_takeFrame {f : Command} {rest : List Command} (hf : d.fifo = f :: rest) (hm : d.mayTake = true) :
    d.Safe (({ d with fifo := rest } : Device).takeFrame f) := by
  have h := effect_takeFrame f { d with fifo := rest }
  have hshell : d.Keeping { d with fifo := rest } := .of_chans rfl rfl rfl rfl
  refine ⟨hshell.trans h.toKeeping, fun ⟨hfifo, hops, hflow⟩ => ⟨h.fifo ?_, h.slots hops, h.flow.trans ?_⟩⟩
  · rw [hf, List.length_cons] at hfifo
    exact Nat.le_of_succ_le hfifo
  · have hm : d.ops.length < Config.replyDepth - d.replies.length := by simpa [Device.mayTake] using hm
    show d.ops.length + d.replies.length + 1 ≤ Config.replyDepth
    omega

theorem safe_execute (n : Nat) (d : Device) : d.Safe (d.execute n) := by
  induction n generalizing d with
  | zero => exact .refl d
  | succ n ih =>
    unfold Device.execute
    split
    · exact .refl d
    · rename_i hf
      split
      · rename_i hm
        exact (safe_takeFrame hf hm).trans (ih _)
      · exact .refl d

theorem safe_settle (d : Device) : d.Safe d.settle := safe_execute _ d

theorem effect_acceptFrame (f : Command) (d : Device) : d.Effect 0 (d.acceptFrame f) := by
  unfold Device.acceptFrame
  split
  · rename_i hroom
    exact ⟨.of_chans rfl rfl rfl rfl, fun _ => by simpa using hroom, id, le_refl _⟩
  · exact .raise ..

theorem effect_receiverTo (r : Receiver) (d : Device) : d.Effect 0 (d.receiverTo r) :=
  .of_parts rfl rfl rfl rfl rfl rfl rfl

theorem effect_byteArrives (b : Byte) (d : Device) : d.Effect 0 (d.byteArrives b) := by
  have hnoise : ∀ noise, d.Effect 0 { d with noiseRun := noise } := fun _ => .of_parts rfl rfl rfl rfl rfl rfl rfl
  unfold Device.byteArrives
  split
  · unfold Device.receiveByte
    split
    · split
      · exact (hnoise _).trans (effect_receiverTo _ _)
      · unfold Device.noiseByte
        split
        · exact .refl d
        · exact (hnoise _).trans (.raise ..)
    · split
      · exact effect_receiverTo _ d
      · exact (effect_receiverTo _ d).trans (.raise ..)
    · split <;> exact effect_receiverTo _ d
    · split
      · exact (effect_receiverTo _ d).trans (effect_acceptFrame _ _)
      · exact (effect_receiverTo _ d).trans (.raise ..)
  · exact .refl d

/-! ## Timers (R14, R90, R125 to R130, R159, R165, R182) -/

theorem effect_startingEnds (d : Device) : d.Effect 0 d.startingEnds := by
  unfold Device.startingEnds
  split
  · exact .of_parts rfl rfl rfl rfl rfl rfl rfl
  · exact .refl d
  · exact .refl d

theorem effect_gapExpires (d : Device) : d.Effect 0 d.gapExpires := by
  have habandon : d.Effect 0 { d with receiver := .hunt } := .of_parts rfl rfl rfl rfl rfl rfl rfl
  unfold Device.gapExpires
  split
  · exact .refl d
  all_goals exact habandon.trans (.raise ..)

theorem effect_messageEnds (d : Device) : d.Effect 0 d.messageEnds := by
  have hidle : d.Effect 0 { d with uplink := .idle } := .of_parts rfl rfl rfl rfl rfl rfl rfl
  unfold Device.messageEnds
  split
  · exact .refl d
  · exact hidle.trans (.choose _)

theorem effect_fire (k : Timer) (d : Device) : d.Effect 0 (d.fire k) := by
  cases k with
  | starting => exact effect_startingEnds d
  | gap => exact effect_gapExpires d
  | uplink => exact effect_messageEnds d
  | house => exact .of_parts rfl rfl rfl rfl rfl rfl rfl
  | fieldTimeout c => exact effect_timeoutExpires c d
  | reconstruction c => exact (calm_completeRecon c d).effect
  | outputFrame c => exact effect_outputFrame c d
  | reference c => exact effect_loseReference c d
  | priorReference c => exact effect_losePriorReference c d
  | acquisition c => exact effect_failAcquisition c d

theorem effect_expire (k : Timer) (d : Device) : d.Effect 0 (d.expire k) := by
  unfold Device.expire
  split
  · exact effect_fire k d
  · exact .refl d

theorem safe_fireIfDue (d : Device) (k : Timer) : d.Safe (d.fireIfDue k) := by
  unfold Device.fireIfDue
  split
  · exact (effect_fire k d).safe.trans (safe_settle _)
  · exact .refl d

theorem safe_foldl_fireIfDue (ks : List Timer) (d : Device) : d.Safe (ks.foldl Device.fireIfDue d) := by
  induction ks generalizing d with
  | nil => exact .refl d
  | cons k ks ih => exact (safe_fireIfDue d k).trans (ih _)

/-! ## Steps -/

theorem safe_deliver (f : Command) (d : Device) : d.Safe (d.deliver f) := by
  unfold Device.deliver
  split
  · exact (effect_acceptFrame f d).safe.trans (safe_settle _)
  · exact .refl d

theorem effect_arrive (t : Ticks) (d : Device) : d.Effect 0 (d.arrive t) := .of_parts rfl rfl rfl rfl rfl rfl rfl

/-- What a row of the opcode table leaves, where every event of its kind keeps what the rows keep. -/
theorem State.onCommand_safe {s t : State} {kind tag : Byte} {p : List Byte} (h : s.onCommand kind tag p = .next t) :
    s.dev.Safe t.dev := by
  obtain rfl : _ = t := by simpa [State.onCommand, State.onDevice] using h
  exact safe_deliver _ _

theorem State.onEvent_safe {s t : State} {at' : Ticks} {f : Device → Device} (hf : ∀ d : Device, d.Effect 0 (f d))
    (h : s.onEvent at' f = .next t) : s.dev.Safe t.dev := by
  obtain rfl : _ = t := by simpa [State.onEvent, State.onDevice] using h
  dsimp only
  split
  · exact ((effect_arrive at' _).trans (hf _)).safe.trans (safe_settle _)
  · exact (effect_arrive at' _).safe

theorem State.onPin_safe {s t : State} {at' : Ticks} {f : Device → Device} (hf : ∀ d : Device, d.Safe (f d))
    (h : s.onPin at' f = .next t) : s.dev.Safe t.dev := by
  obtain rfl : _ = t := by simpa [State.onPin, State.onDevice] using h
  exact (effect_arrive at' _).safe.trans (hf _)

theorem exec_safe {s t : State} {i : Instr} (h : exec i s = .next t) : s.dev.Safe t.dev := by
  cases i with
  | fieldStart => exact State.onEvent_safe (effect_fieldStart _ _) h
  | lineArrival => exact State.onEvent_safe (effect_lineArrives _ _) h
  | fieldEnd => exact State.onEvent_safe (effect_fieldEnds _) h
  | reconstructionCompletion => exact State.onEvent_safe (fun d => (calm_completeRecon _ d).effect) h
  | houseFrameStart => exact State.onEvent_safe effect_houseStart h
  | receivedByte => exact State.onEvent_safe (effect_byteArrives _) h
  | fieldTimeoutExpiry | outputFrameStart | houseFamilyTimeout | referenceLost | priorReferenceLost
  | acquisitionWindowEnd | gapTimerExpiry | uplinkMessageEnd | startingEnd => exact State.onEvent_safe (effect_expire _) h
  | cueLineEdge => exact State.onPin_safe (fun d => (effect_outsideLevel _ _ d).safe.trans (safe_settle _)) h
  | powerUp | powerFailure => exact State.onPin_safe (fun d => (effect_supplyFails d).safe) h
  | supplyGood => exact State.onPin_safe (fun d => (effect_supplyReturns _ _ d).safe) h
  | resetPinAssert => exact State.onPin_safe (fun d => (effect_pinFalls d).safe) h
  | resetPinRelease => exact State.onPin_safe (fun d => (effect_pinRises _ _ d).safe) h
  | _ => exact State.onCommand_safe h

theorem step_safe {s t : State} (h : step s = .next t) : s.dev.Safe t.dev := by
  unfold step at h
  split at h
  · rename_i i rest _
    exact exec_safe (s := ⟨rest, s.dev⟩) h
  · obtain rfl : _ = t := by simpa using h
    have hclock : s.dev.Effect 0 { s.dev with now := s.dev.now + 1 } := .of_parts rfl rfl rfl rfl rfl rfl rfl
    exact hclock.safe.trans (safe_foldl_fireIfDue _ _)

/-- Settles O5, from what every command and every event adds to the queues. -/
theorem stepKeepsQueueBounds : Obligations.StepKeepsQueueBounds :=
  fun _ _ hf hl h => ⟨(step_safe h).flow hf, (step_safe h).log hl⟩

/-- Settles O6, from what every work on one channel keeps of it. -/
theorem stepKeepsChannelBound : Obligations.StepKeepsChannelBound := fun _ _ hb h => (step_safe h).bound hb

/-- Settles O7, from the checks that an entry passes and the swap of two plans in order. -/
theorem stepKeepsPlansOrdered : Obligations.StepKeepsPlansOrdered := fun _ _ hp h => (step_safe h).plans hp

/-- Settles O8, from what each change of a generator leaves. -/
theorem stepKeepsTimingFits : Obligations.StepKeepsTimingFits := fun _ _ ht h => (step_safe h).timing ht

/-- Settles O10: what goes on air is composed within the range, black, or of a border colour that was clamped to it. -/
theorem stepKeepsLegalOutput : Obligations.StepKeepsLegalOutput := fun _ _ ho h => (step_safe h).output ho

end Sys2Proof.Machine
end


section
/-! PROOFS. The first step and the reset state (section 12.5), and the operations table when the supply comes back over
operations in flight. -/

namespace Sys2Proof.Machine

/-- Settles O1, by the definition of a step. -/
theorem stepRunsFrontCommand : Obligations.StepRunsFrontCommand := fun _ _ => rfl

/-- Every channel of the reset state is a channel after reset. -/
theorem Device.reset_chan (c : Chan) : Device.reset.chan c = Channel.reset 0 := by simp [Device.chan, Device.reset]

/-- Settles O3, part by part of the reset state. -/
theorem resetLeavesTable : Obligations.ResetLeavesTable := by
  refine ⟨fun c => ?_, fun k => ?_, rfl, rfl, rfl, rfl, rfl, rfl, rfl, fun i => ?_, ?_, fun n => ?_, rfl, rfl, rfl⟩
  · rw [show State.reset.dev = Device.reset from rfl, Device.reset_chan]
    exact ⟨rfl, rfl, rfl, rfl⟩
  · simp [State.reset, Device.reset]
  · fin_cases i <;> rfl
  · decide
  · simp [State.reset, Device.reset, Device.cue, CueRecord.reset]

/-- Settles O4: every table of the reset state is empty and every channel is as reset leaves it. -/
theorem resetMeetsInvariants : Obligations.ResetMeetsInvariants := by
  rw [Obligations.ResetMeetsInvariants, show State.reset.dev = Device.reset from rfl]
  refine ⟨⟨by decide, by decide, by decide⟩, ⟨by decide, by decide, by decide⟩, fun c => ?_, fun c => ?_, fun c => ?_,
    ⟨⟨List.nodup_nil, by simp [Device.reset]⟩, fun k c => ?_⟩, fun p hp q hq => ?_, fun c => ?_⟩
  · exact Device.reset_chan c ▸ Channel.reset_bound 0
  · rw [Device.reset_chan]
    exact ⟨Plan.empty_ordered, Plan.empty_ordered⟩
  · exact Device.reset_chan c ▸ Generator.reset_fits 0
  · simp [Device.pendingOps, Device.isPending, Device.pendingOp, Device.reset]
  · simp [Device.reset, hq] at hp
  · exact Device.reset_chan c ▸ Channel.reset_legalOutput 0

/-! ## The operations table when the supply comes back -/

/-- A commit pending on RUNNING channel 0 while the supply is not good and nothing has been reset: no run of the part
comes here, and the table fits. -/
def unpowered : State where
  pending := [.supplyGood 0 false false]
  dev := { Device.reset with
    phase := .operating
    supplyGood := false
    chans := Device.reset.chans.set 0 { Channel.reset 0 with state := .running }
    ops := [⟨7, .commit, [⟨0, .clear, none⟩], .none⟩] }

theorem unpowered_fits : unpowered.dev.OpsFit := by
  refine ⟨⟨by decide, by decide⟩, fun k c => ?_⟩
  by_cases h : k = .commit ∧ c = 0
  · obtain ⟨rfl, rfl⟩ := h
    exact ⟨by decide, fun _ => rfl⟩
  · have hnone : unpowered.dev.pendingOps k c = [] := by
      have hnot : ¬ (OpKind.commit.name = k ∧ (⟨7, .commit, [⟨0, .clear, none⟩], .none⟩ : Operation).pendingOn c = true) := by
        rintro ⟨rfl, hc⟩
        exact h ⟨rfl, by simpa [Operation.pendingOn, Target.pendingOn, eq_comm] using hc⟩
      simpa [Device.pendingOps, unpowered] using hnot
    exact ⟨by simp [hnone], fun hp => absurd (Device.isPending_eq_false.2 hnone) (by simp [hp])⟩

/-- Refutes O9: a reset that ends gives the channels their reset values again and leaves the operations table, so where the
supply comes back over an operation in flight, the operation is pending on a channel that is OFF. -/
theorem not_stepKeepsOpsFit : ¬ Obligations.StepKeepsOpsFit := by
  intro h
  have hoff := (h unpowered { unpowered with
    pending := [], dev := ((unpowered.dev.arrive 0).supplyReturns false false) } unpowered_fits rfl).2 .commit 0
  exact absurd (hoff.2 (by decide)) (by
    change ChanState.off ≠ .running
    decide)

end Sys2Proof.Machine
end


section
/-! PROOFS. The arbiter, raising a source, the receiver, and the end of a message (R157 to R165, R170, R171). -/

namespace Sys2Proof.Machine

/-! ## The arbiter (R171) -/

/-- A record that the arbiter may name: raised, at a level above 0. -/
def Sendable (ns : Vector NoticeRecord 28) (i : Fin 28) : Prop := ns[i].raised.isSome ∧ 0 < ns[i].level.val

/-- What the arbiter has found among the places of a list: of those it may name the first of the highest level. -/
def IsBest (ns : Vector NoticeRecord 28) (l : List (Fin 28)) : Option (Fin 28) → Prop
  | none => ∀ j ∈ l, ¬ Sendable ns j
  | some i => i ∈ l ∧ Sendable ns i ∧
      ∀ j ∈ l, Sendable ns j → ns[j].level ≤ ns[i].level ∧ (ns[j].level = ns[i].level → i ≤ j)

/-- Looking at one more place, of a higher number, keeps the best found. -/
theorem IsBest.step {ns : Vector NoticeRecord 28} {l : List (Fin 28)} {best : Option (Fin 28)} {a : Fin 28}
    (h : IsBest ns l best) (ha : ∀ j ∈ l, j < a) : IsBest ns (l ++ [a]) (betterSource ns best a) := by
  have hmem : ∀ {p : Fin 28 → Prop}, (∀ j ∈ l, p j) → p a → ∀ j ∈ l ++ [a], p j := by
    intro p hl hpa j hj
    rw [List.mem_append, List.mem_singleton] at hj
    obtain hj | rfl := hj
    · exact hl j hj
    · exact hpa
  unfold betterSource
  split <;> rename_i hs
  · cases best with
    | none =>
      exact ⟨by simp, hs, hmem (fun j hj hj' => absurd hj' (h j hj)) fun _ => ⟨le_refl _, fun _ => le_refl _⟩⟩
    | some i =>
      obtain ⟨hi, his, hbest⟩ := h
      dsimp only
      split
      · rename_i hlt
        refine ⟨by simp, hs, hmem (fun j hj hj' => ?_) fun _ => ⟨le_refl _, fun _ => le_refl _⟩⟩
        have hja : ns[j].level < ns[a].level := (hbest j hj hj').1.trans_lt hlt
        exact ⟨hja.le, fun e => absurd e hja.ne⟩
      · rename_i hle
        exact ⟨by simp [hi], his, hmem hbest fun _ => ⟨not_lt.1 hle, fun _ => (ha i hi).le⟩⟩
  · cases best with
    | none => exact hmem h hs
    | some i =>
      obtain ⟨hi, his, hbest⟩ := h
      exact ⟨by simp [hi], his, hmem hbest fun h' => absurd h' hs⟩

theorem isBest_foldl (ns : Vector NoticeRecord 28) {l : List (Fin 28)} (hl : l.Pairwise (· < ·)) :
    IsBest ns l (l.foldl (betterSource ns) none) := by
  induction l using List.reverseRecOn with
  | nil => simp [IsBest]
  | append_singleton l a ih =>
    obtain ⟨hsorted, -, hlt⟩ := List.pairwise_append.1 hl
    rw [List.foldl_concat]
    exact (ih hsorted).step fun j hj => hlt j hj a (List.mem_singleton_self a)

theorem isBest_namedSource (ns : Vector NoticeRecord 28) : IsBest ns (List.finRange 28) (namedSource ns) :=
  isBest_foldl ns (List.pairwise_lt_finRange 28)

/-- Settles O14: the search over the places in ascending number keeps the best found. -/
theorem arbiterNamesHighestRaised : Obligations.ArbiterNamesHighestRaised := by
  intro ns i
  have hbest := isBest_namedSource ns
  constructor
  · intro h
    rw [h] at hbest
    obtain ⟨-, ⟨hraised, hlevel⟩, hall⟩ := hbest
    refine ⟨hraised, hlevel, fun j hj => ?_⟩
    by_cases hj0 : 0 < ns[j].level.val
    · exact hall j (List.mem_finRange j) ⟨hj, hj0⟩
    · have hlt : ns[j].level < ns[i].level := by
        rw [Fin.lt_def]
        omega
      exact ⟨hlt.le, fun e => absurd e hlt.ne⟩
  · rintro ⟨hraised, hlevel, hall⟩
    cases hn : namedSource ns with
    | none =>
      rw [hn] at hbest
      exact absurd ⟨hraised, hlevel⟩ (hbest i (List.mem_finRange i))
    | some k =>
      rw [hn] at hbest
      obtain ⟨-, ⟨hk, -⟩, hbest⟩ := hbest
      obtain ⟨hik, hki⟩ := hbest i (List.mem_finRange i) ⟨hraised, hlevel⟩
      obtain ⟨hki', hik'⟩ := hall k hk
      exact congrArg some (le_antisymm (hki (le_antisymm hik hki')) (hik' (le_antisymm hki' hik)))

/-- Settles O15: the record of the source by whether it is raised, and the details that are gathered. -/
theorem raiseCoalesces : Obligations.RaiseCoalesces := by
  intro d src detail
  refine ⟨d.notices.set src.index ((d.notice src).raise detail), rfl, fun i hi => ?_, ?_, fun h => ?_, fun old h => ?_⟩
  · rw [Fin.getElem_fin, Fin.getElem_fin]
    exact Vector.getElem_set_ne _ _ fun e => hi (Fin.ext e.symm)
  all_goals rw [Fin.getElem_fin, Vector.getElem_set_self]
  · unfold NoticeRecord.raise
    split <;> rfl
  · simp [NoticeRecord.raise, h]
  · simp only [NoticeRecord.raise, h]
    refine ⟨trivial, fun hne => ?_, fun m l m' l' hold hnew => by rw [hold, hnew]; rfl⟩
    unfold Detail.coalesce
    split
    · exact absurd hne (by simp)
    · rfl

/-! ## Sums and frames (R157) -/

theorem byteSum_foldl (bs : List Byte) (a : Byte) : bs.foldl (· + ·) a = a + byteSum bs := by
  induction bs generalizing a with
  | nil => simp [byteSum]
  | cons b bs ih =>
    rw [byteSum, List.foldl_cons, List.foldl_cons, ih, ih (0 + b)]
    ac_rfl

theorem byteSum_cons (b : Byte) (bs : List Byte) : byteSum (b :: bs) = b + byteSum bs := by
  rw [byteSum, List.foldl_cons, byteSum_foldl]
  simp

theorem byteSum_append (as bs : List Byte) : byteSum (as ++ bs) = byteSum as + byteSum bs := by
  rw [byteSum, List.foldl_append, byteSum_foldl]
  rfl

/-- The sum of bytes is that of their values modulo 256. -/
theorem byteSum_toNat (bs : List Byte) : (byteSum bs).toNat = (bs.map BitVec.toNat).sum % 256 := by
  induction bs with
  | nil => rfl
  | cons b bs ih =>
    rw [byteSum_cons, BitVec.toNat_add, ih, List.map_cons, List.sum_cons]
    omega

/-- The check of a frame whose bytes from LEN to CHECK are these (R158). -/
theorem byteSum_check (len : Nat) (held : List Byte) (b : Byte) :
    byteSum (BitVec.ofNat 8 len :: held ++ [b]) = 0 ↔ (len + (held.map BitVec.toNat).sum + b.toNat) % 256 = 0 := by
  rw [← BitVec.toNat_inj, byteSum_toNat, show (0 : Byte).toNat = 0 from rfl]
  simp only [List.cons_append, List.map_cons, List.map_append, List.sum_cons, List.sum_append, BitVec.toNat_ofNat,
    List.map_nil, List.sum_nil]
  omega

/-! ## The receiver (R158) -/

theorem Device.receiveByte_hunt {d : Device} (h : d.receiver = .hunt) (b : Byte) : d.receiveByte b =
    if b = 0xA5 then ({ d with noiseRun := false } : Device).receiverTo .length else d.noiseByte := by
  simp only [Device.receiveByte, h]

theorem Device.receiveByte_length {d : Device} (h : d.receiver = .length) (b : Byte) : d.receiveByte b =
    if 2 ≤ b.toNat ∧ b.toNat ≤ 250 then d.receiverTo (.body b.toNat []) else (d.receiverTo .hunt).linkFault .length := by
  simp only [Device.receiveByte, h]

theorem Device.receiveByte_body {d : Device} {len : Nat} {held : List Byte} (h : d.receiver = .body len held) (b : Byte) :
    d.receiveByte b = if len ≤ held.length + 1 then d.receiverTo (.check len (held ++ [b]))
      else d.receiverTo (.body len (held ++ [b])) := by
  simp only [Device.receiveByte, h]

theorem Device.receiveByte_check {d : Device} {len : Nat} {held : List Byte} (h : d.receiver = .check len held) (b : Byte) :
    d.receiveByte b =
      if byteSum (BitVec.ofNat 8 len :: held ++ [b]) = 0 then (d.receiverTo .hunt).acceptFrame (commandOf held)
      else (d.receiverTo .hunt).linkFault .checksum := by
  simp only [Device.receiveByte, h]

/-- The receiver at the end of the bytes of a body. -/
theorem receiveByte_bytes (len : Nat) (rest : List Byte) : ∀ (held : List Byte) (d : Device),
    d.receiver = .body len held → held.length + rest.length = len → rest ≠ [] →
      rest.foldl (fun d b => d.receiveByte b) d = { d with receiver := .check len (held ++ rest), gapSince := d.now } := by
  induction rest with
  | nil => exact fun _ _ _ _ h => absurd rfl h
  | cons b rest ih =>
    intro held d hr hl _
    rw [List.length_cons] at hl
    rw [List.foldl_cons, Device.receiveByte_body hr]
    cases rest with
    | nil =>
      rw [List.length_nil] at hl
      rw [if_pos (by omega)]
      rfl
    | cons b' rest =>
      rw [List.length_cons] at hl
      rw [if_neg (by omega), ih (held ++ [b]) _ rfl (by simp; omega) (by simp)]
      simp [Device.receiverTo]

/-- Settles O11: SYNC, LEN, the body byte by byte, and a CHECK that makes the sum 0. -/
theorem receiverReadsBuiltFrames : Obligations.ReceiverReadsBuiltFrames := by
  intro d kind tag p hr hp
  have hlen : (BitVec.ofNat 8 (p.length + 2)).toNat = p.length + 2 := by
    rw [BitVec.toNat_ofNat]
    omega
  have hsum : byteSum (BitVec.ofNat 8 (p.length + 2) :: (kind :: tag :: p) ++
      [-(byteSum (BitVec.ofNat 8 (p.length + 2) :: kind :: tag :: p))]) = 0 := by
    rw [byteSum_append, byteSum_cons _ []]
    simp [byteSum]
  unfold frameBytes
  dsimp only
  rw [List.foldl_cons, Device.receiveByte_hunt hr, if_pos rfl, List.cons_append, List.foldl_cons,
    Device.receiveByte_length rfl, hlen, if_pos ⟨by omega, by omega⟩, List.foldl_append,
    receiveByte_bytes (p.length + 2) (kind :: tag :: p) [] _ rfl (by simp) (by simp), List.foldl_cons, List.foldl_nil,
    Device.receiveByte_check rfl, List.nil_append, if_pos hsum]
  rfl

end Sys2Proof.Machine
end


section
/-! PROOFS. What a received byte, the gap timer, the end of a message and a full queue do, and what a reply and the end of
an operation leave (R152, R155, R158 to R165). -/

namespace Sys2Proof.Machine

variable {s : State} {d : Device}

/-- An event row while no reset holds the blocks. -/
theorem State.onEvent_of_released (h : s.dev.phase ≠ .held) (t : Ticks) (f : Device → Device) :
    s.onEvent t f = .next { s with dev := (f (s.dev.arrive t)).settle } := by
  have hr : s.dev.released = true := by
    unfold Device.released
    split <;> simp_all
  simp [State.onEvent, State.onDevice, hr]

/-! ## The receiver by its state (R158 to R161) -/

theorem Device.byteArrives_of_up (h : d.phase = .operating) (b : Byte) : d.byteArrives b = d.receiveByte b :=
  if_pos (decide_eq_true h)

theorem exec_receivedByte_of_fifo (hp : s.dev.phase = .operating) (hf : s.dev.fifo = []) {t : Ticks} {b : Byte}
    {d' : Device} (h : (s.dev.arrive t).receiveByte b = d') (hf' : d'.fifo = s.dev.fifo) :
    exec (.receivedByte t b) s = .next { s with dev := d' } := by
  have hup : (s.dev.arrive t).byteArrives b = d' := by
    rw [Device.byteArrives_of_up (d := s.dev.arrive t) hp, h]
  have hq : s.dev.Quiet := ⟨by simp [hp], hf⟩
  exact hup ▸ State.onEvent_of_quiet hq t _ (by rw [hup, hf'])

/-- The frame of a byte that makes the sum of a frame 0 is handed to the FIFO, and the executor takes what it may. -/
theorem exec_receivedByte_check (hp : s.dev.phase = .operating) {t : Ticks} {b : Byte} {len : Nat} {kind tag : Byte}
    {p : List Byte} (hr : s.dev.receiver = .check len (kind :: tag :: p))
    (hs : (len + kind.toNat + tag.toNat + (p.map BitVec.toNat).sum + b.toNat) % 256 = 0) :
    exec (.receivedByte t b) s = .next { s with
      dev := (({ s.dev.arrive t with receiver := .hunt, gapSince := (s.dev.arrive t).now } : Device).acceptFrame
        ⟨kind, tag, p⟩).settle } := by
  have hup : (s.dev.arrive t).byteArrives b = ({ s.dev.arrive t with
      receiver := .hunt, gapSince := (s.dev.arrive t).now } : Device).acceptFrame ⟨kind, tag, p⟩ := by
    rw [Device.byteArrives_of_up (d := s.dev.arrive t) hp, Device.receiveByte_check (d := s.dev.arrive t) hr, if_pos]
    · rfl
    · rw [byteSum_check]
      simpa [Nat.add_assoc] using hs
  exact hup ▸ State.onEvent_of_released (by simp [hp]) t _

theorem due_gap_iff : d.due .gap = true ↔
    d.phase = .operating ∧ d.receiver ≠ .hunt ∧ d.gapSince + 1350000 ≤ d.now := by
  simp only [Device.due, Device.linkUp, Bool.and_eq_true, decide_eq_true_eq, and_assoc]
  rfl

/-- Settles O12, by the receiver's state. -/
theorem receiverByState : Obligations.ReceiverByState := by
  intro s t b hp hf d
  have hreceive : ∀ {d' : Device}, d.receiveByte b = d' → d'.fifo = s.dev.fifo →
      exec (.receivedByte t b) s = .next { s with dev := d' } := fun h => exec_receivedByte_of_fifo hp hf h
  have hraise : ∀ (src : Source) (detail : Detail) (d' : Device), (d'.raise src detail).fifo = d'.fifo :=
    fun src detail d' => Device.fifo_of_shell (d'.raise_shell src detail)
  refine ⟨fun hr hb => ?_, fun hr hb hn => ?_, fun hr hb hn => ?_, fun hr h2 h250 => ?_, fun hr hb => ?_,
    fun len held hr hl => ?_, fun len held hr hl => ?_, fun len held hr hs => ?_, fun len kind tag p hr hs => ?_,
    fun h => ?_, fun hr hg => ?_⟩
  · exact hreceive (by rw [Device.receiveByte_hunt hr, if_pos hb]; rfl) rfl
  · exact hreceive (by rw [Device.receiveByte_hunt hr, if_neg hb, Device.noiseByte, if_pos hn]) rfl
  · exact hreceive (by rw [Device.receiveByte_hunt hr, if_neg hb, Device.noiseByte, if_neg (by simp [hn])]; rfl) (hraise ..)
  · exact hreceive (by rw [Device.receiveByte_length hr, if_pos ⟨h2, h250⟩]; rfl) rfl
  · have hb' : ¬ (2 ≤ b.toNat ∧ b.toNat ≤ 250) := by omega
    exact hreceive (by rw [Device.receiveByte_length hr, if_neg hb']; rfl) (hraise ..)
  · exact hreceive (by rw [Device.receiveByte_body hr, if_neg (Nat.not_le.2 hl)]; rfl) rfl
  · exact hreceive (by rw [Device.receiveByte_body hr, if_pos hl.ge]; rfl) rfl
  · have hne : byteSum (BitVec.ofNat 8 len :: held ++ [b]) ≠ 0 := fun e => hs ((byteSum_check len held b).1 e)
    exact hreceive (by rw [Device.receiveByte_check hr, if_neg hne]; rfl) (hraise ..)
  · exact exec_receivedByte_check hp hr hs
  · have hdue : d.due .gap = false := by
      rw [← Bool.not_eq_true, due_gap_iff]
      rintro ⟨-, hne, hle⟩
      exact h.elim hne (Nat.not_lt.2 hle)
    have hexpire := Device.expire_of_not_due hdue
    exact hexpire ▸ State.onEvent_of_quiet ⟨by simp [hp], hf⟩ t (Device.expire .gap) (by rw [hexpire]; rfl)
  · have hexpire : d.expire .gap = ({ d with receiver := .hunt } : Device).raise .linkFault (.linkFault .gap) := by
      rw [Device.expire_of_due (d := d) (due_gap_iff.2 ⟨hp, hr, hg⟩)]
      unfold Device.fire Device.gapExpires
      cases h : d.receiver with
      | hunt => exact absurd h hr
      | _ => rfl
    exact hexpire ▸ State.onEvent_of_quiet ⟨by simp [hp], hf⟩ t (Device.expire .gap) (by rw [hexpire, hraise]; rfl)

/-! ## The executor and the flow condition (R162) -/

theorem mayTake_iff : d.mayTake = true ↔ d.ops.length + d.replies.length < 8 := by
  simp only [Device.mayTake, decide_eq_true_eq, show Config.replyDepth = 8 from rfl]
  omega

/-- The executor takes the oldest frame where the condition of R162 lets it. -/
theorem Device.settle_of_room {f : Command} {fs : List Command} (hf : d.fifo = f :: fs)
    (h : d.ops.length + d.replies.length < 8) :
    d.settle = (({ d with fifo := fs } : Device).takeFrame f).execute fs.length := by
  simp [Device.settle, Device.execute, hf, mayTake_iff.2 h]

/-- While the replies held and the operations in flight are eight or more, no frame is taken. -/
theorem Device.settle_of_full (h : 8 ≤ d.ops.length + d.replies.length) : d.settle = d := by
  have hm : d.mayTake = false := by
    rw [← Bool.not_eq_true, mayTake_iff]
    omega
  unfold Device.settle
  cases d.fifo.length with
  | zero => rfl
  | succ n =>
    unfold Device.execute
    split
    · rfl
    · simp [hm]

/-- A command row delivers its frame (log 10). -/
theorem exec_of_commandFrame {i : Instr} {f : Command} (h : commandFrame i = some f) (s : State) :
    exec i s = .next { s with dev := s.dev.deliver f } := by
  cases i <;> first | (obtain rfl : _ = f := Option.some.inj h; rfl) | exact absurd h (by simp [commandFrame])

/-- A frame that arrives while the executor takes none joins the FIFO (R161, R162). -/
theorem Device.acceptFrame_settle_of_full (h : 8 ≤ d.ops.length + d.replies.length) (hf : d.fifo.length < Config.fifoDepth)
    (f : Command) :
    (d.acceptFrame f).settle = { d with fifo := d.fifo ++ [f] } := by
  rw [Device.acceptFrame, if_pos hf]
  exact Device.settle_of_full h

/-- A frame that finds the FIFO full, while the uplink is busy, is discarded with an OVERRUN fault (R161). -/
theorem Device.acceptFrame_settle_of_overrun {frame : List Byte} {since : Ticks} (hu : d.uplink = .sending frame since)
    (h : 8 ≤ d.ops.length + d.replies.length) (hf : Config.fifoDepth ≤ d.fifo.length) (f : Command) :
    (d.acceptFrame f).settle = d.raise .linkFault (.linkFault .overrun) := by
  have hraise : d.raise .linkFault (.linkFault .overrun) = { d with
      notices := d.notices.set (Source.linkFault).index ((d.notice .linkFault).raise (.linkFault .overrun)) } :=
    Device.choose_of_sending (frame := frame) (since := since) hu
  rw [Device.acceptFrame, if_neg (Nat.not_lt.2 hf), Device.linkFault, hraise]
  exact Device.settle_of_full h

/-! ## The end of a message (R165) -/

theorem due_uplink_iff {frame : List Byte} {since : Ticks} (h : d.uplink = .sending frame since) :
    d.due .uplink = true ↔ 10 * frame.length * 27000000 ≤ (d.now - since) * d.lineRate := by
  simp only [Device.due, h, decide_eq_true_eq]
  rfl

/-- A message that has been sent lets the uplink choose (R165). -/
theorem expire_uplink {frame : List Byte} {since : Ticks} (hu : d.uplink = .sending frame since)
    (h : 10 * frame.length * 27000000 ≤ (d.now - since) * d.lineRate) :
    d.expire .uplink = ({ d with uplink := .idle } : Device).choose := by
  rw [Device.expire_of_due ((due_uplink_iff hu).2 h), Device.fire, Device.messageEnds, hu]

/-- An IDLE uplink begins the oldest reply (R165). -/
theorem Device.choose_reply (hp : d.phase = .operating) (hu : d.uplink = .idle) {r : Reply} {rest : List Reply}
    (hr : d.replies = r :: rest) : d.choose = { d with uplink := .sending r.frame d.now, replies := rest } := by
  simp [Device.choose, hp, hu, hr]

/-- An IDLE uplink without a reply begins the notice of the source that the arbiter names (R171). -/
theorem Device.choose_notice (hp : d.phase = .operating) (hu : d.uplink = .idle) (hr : d.replies = []) {i : Fin 28}
    (hi : namedSource d.notices = some i) : d.choose = { d with
      uplink := .sending (noticeFrameOf d.notices i) d.now, notices := d.notices.set i d.notices[i].lower } := by
  simp [Device.choose, hp, hu, hr, hi]

/-- An IDLE uplink with nothing to send stays IDLE. -/
theorem Device.choose_nothing (hr : d.replies = []) (hi : namedSource d.notices = none) : d.choose = d := by
  unfold Device.choose
  split
  · simp [hr, hi]
  · rfl

/-- Settles O13, by what waits for the uplink and in the command FIFO. -/
theorem messageEndChoosesNext : Obligations.MessageEndChoosesNext := by
  intro s t frame since hp hu d ended full
  have hexec : exec (.uplinkMessageEnd t) s = .next { s with dev := (d.expire .uplink).settle } :=
    State.onEvent_of_released (by simp [hp]) t _
  have hquiet : ∀ {d' : Device}, d.expire .uplink = d' → d'.fifo = [] →
      exec (.uplinkMessageEnd t) s = .next { s with dev := d' } := by
    intro d' h hf
    rw [hexec, h, Device.settle_nil hf]
  refine ⟨fun hn hf => ?_, fun he hf => ⟨fun r rest hr => ?_, fun i detail hr hi hd => ?_, fun hr hi => ?_⟩,
    fun r rest f fs he hr hf hroom => ?_, fun u f fs hf => ⟨Device.settle_of_room hf, Device.settle_of_full⟩,
    fun i f hfull hi => ?_, fun b len kind tag p hfull hr hs => ?_⟩
  · refine hquiet (Device.expire_of_not_due ?_) hf
    rw [← Bool.not_eq_true]
    exact fun h => hn ((due_uplink_iff (d := d) hu).1 h)
  · exact hquiet ((expire_uplink (d := d) hu he).trans (Device.choose_reply (d := { d with uplink := .idle }) hp rfl hr)) hf
  · have hframe : noticeFrameOf d.notices i =
        frameBytes 0xC1 0 (noticeEntry (i.val + 1) d.notices[i].level d.notices[i].superseded detail) := by
      simp only [noticeFrameOf, hd]
      rfl
    rw [← hframe]
    exact hquiet ((expire_uplink (d := d) hu he).trans
      (Device.choose_notice (d := { d with uplink := .idle }) hp rfl hr hi)) hf
  · exact hquiet ((expire_uplink (d := d) hu he).trans (Device.choose_nothing (d := { d with uplink := .idle }) hr hi)) hf
  · have hreply := (expire_uplink (d := d) hu he).trans
      (Device.choose_reply (d := { d with uplink := .idle }) (r := r) (rest := rest) hp rfl hr)
    rw [hexec, hreply]
    exact congrArg (fun d' => Host.Outcome.next { s with dev := d' })
      (Device.settle_of_room (d := { d with uplink := .sending r.frame d.now, replies := rest }) hf hroom)
  · have hdeliver : s.dev.deliver f = (s.dev.acceptFrame f).settle := if_pos (decide_eq_true hp)
    rw [exec_of_commandFrame hi, hdeliver]
    exact ⟨fun h => by rw [Device.acceptFrame_settle_of_full hfull h],
      fun h => by rw [Device.acceptFrame_settle_of_overrun hu hfull h]⟩
  · have hcheck := exec_receivedByte_check (t := t) hp hr hs
    exact ⟨fun h => hcheck.trans (congrArg (fun d' => Host.Outcome.next { s with dev := d' })
        (Device.acceptFrame_settle_of_full (d := { d with receiver := .hunt, gapSince := d.now }) hfull h _)),
      fun h => hcheck.trans (congrArg (fun d' => Host.Outcome.next { s with dev := d' })
        (Device.acceptFrame_settle_of_overrun (d := { d with receiver := .hunt, gapSince := d.now }) hu hfull h _))⟩

end Sys2Proof.Machine
end


section
/-! PROOFS. What a reply does to the queue, and what is left of an operation whose work is finished on a channel (R152,
R155, R164). -/

namespace Sys2Proof.Machine

variable {d : Device}

/-- A reply waits while the uplink is busy or the hello message has not gone (R164). -/
theorem Device.answer_of_busy (h : ¬ (d.phase = .operating ∧ d.uplink = .idle)) (tag kind : Byte) (st : Status)
    (rs : List Byte) : d.answer tag kind st rs = { d with replies := d.replies ++ [⟨tag, st, kind, rs⟩] } := by
  obtain ⟨e, -⟩ | ⟨hp, hu, -⟩ := d.enterReply_cases ⟨tag, st, kind, rs⟩
  · exact e
  · exact absurd ⟨hp, hu⟩ h

/-- An IDLE uplink begins the oldest of the replies with the one that enters (R165). -/
theorem Device.answer_of_idle (hp : d.phase = .operating) (hu : d.uplink = .idle) {tag kind : Byte} {st : Status}
    {rs : List Byte} {r : Reply} {rest : List Reply} (hr : d.replies ++ [⟨tag, st, kind, rs⟩] = r :: rest) :
    d.answer tag kind st rs = { d with uplink := .sending r.frame d.now, replies := rest } :=
  Device.choose_reply (d := { d with replies := d.replies ++ [⟨tag, st, kind, rs⟩] }) hp hu hr

/-! ## The end of an operation -/

section Settled

variable {c : Chan} {flag : DoneFlag} {performed : Option FlushDone} {result : OpResult} {before after : List Operation}
  {o : Operation}

/-- Only the operation of the tag changes where tags are distinct. -/
theorem map_settle_of_distinct (h : ∀ x ∈ before ++ after, x.tag ≠ o.tag) (f : Operation → Operation) :
    (before ++ o :: after).map (fun x => if x.tag = o.tag then f x else x) = before ++ f o :: after := by
  have hid : ∀ l : List Operation, (∀ x ∈ l, x.tag ≠ o.tag) → l.map (fun x => if x.tag = o.tag then f x else x) = l :=
    fun l hl => (List.map_congr_left fun x hx => if_neg (hl x hx)).trans (List.map_id _)
  rw [List.map_append, List.map_cons, if_pos rfl, hid before fun x hx => h x (List.mem_append_left _ hx),
    hid after fun x hx => h x (List.mem_append_right _ hx)]

/-- What a completion does to a table that holds the operation of a tag once. -/
theorem Device.completeOp_of_distinct {o' : Operation} (ho : d.ops = before ++ o' :: after)
    (h : ∀ x ∈ before ++ after, x.tag ≠ o'.tag) : d.completeOp o'.tag =
      if o'.complete then ({ d with ops := before ++ after } : Device).enterReply o'.reply else d := by
  have hbefore : ∀ x ∈ before, x.tag ≠ o'.tag := fun x hx => h x (List.mem_append_left _ hx)
  have hfind : d.ops.find? (fun x => decide (x.tag = o'.tag)) = some o' := by
    rw [ho, List.find?_append, List.find?_eq_none.2 (by simpa using hbefore)]
    simp
  have hfilter : d.ops.filter (fun x => decide (x.tag ≠ o'.tag)) = before ++ after := by
    rw [ho, List.filter_append, List.filter_cons_of_neg (by simp), ← List.filter_append, List.filter_eq_self]
    exact fun x hx => decide_eq_true (h x hx)
  unfold Device.completeOp
  rw [hfind]
  dsimp only
  rw [hfilter]

theorem Target.settle_eq (c : Chan) (flag : DoneFlag) (performed : Option FlushDone) (t : Target) :
    t.settle c flag performed = if t.chan = c ∧ t.flag = .clear then { t with flag := flag, performed := performed } else t := by
  simp [Target.settle, Target.pendingOn]

/-- What the end of the work of an operation on a channel leaves, in a table of distinct tags. -/
theorem Device.settleOp_of_distinct (ho : d.ops = before ++ o :: after) (h : ∀ x ∈ before ++ after, x.tag ≠ o.tag) :
    d.settleOp o.tag c flag performed result =
      if (o.settle c flag performed result).complete then
        ({ d with ops := before ++ after } : Device).enterReply (o.settle c flag performed result).reply
      else { d with ops := before ++ o.settle c flag performed result :: after } := by
  rw [Device.settleOp, ho, map_settle_of_distinct h]
  exact Device.completeOp_of_distinct (d := { d with ops := before ++ o.settle c flag performed result :: after }) rfl h

end Settled

theorem Operation.complete_iff (o : Operation) : o.complete = true ↔ ∀ t ∈ o.targets, t.flag ≠ .clear := by
  simp [Operation.complete]

/-- A failed acquisition (R129). -/
def OpResult.failed : OpResult → Bool
  | .timing reason _ _ => decide (reason = .absent ∨ reason = .wrongFamily ∨ reason = .unstable)
  | _ => false

theorem Operation.status_eq (o : Operation) : o.status =
    if o.targets.any fun t => decide (t.flag = .aborted) then .aborted else if o.result.failed then .failed else .ok := by
  unfold Operation.status OpResult.failed
  split
  · rfl
  · cases o.result with
    | timing reason _ _ => cases reason <;> rfl
    | _ => rfl

theorem Operation.aborted_iff (o : Operation) :
    o.status = .aborted ↔ (o.targets.any fun t => decide (t.flag = .aborted)) = true := by
  rw [Operation.status_eq]
  by_cases h : (o.targets.any fun t => decide (t.flag = .aborted)) = true
  · rw [if_pos h]
    exact iff_of_true rfl h
  · rw [if_neg h]
    exact iff_of_false (by split <;> simp) h

/-- A commit answers the number of entries, unless it was aborted (R32). -/
theorem Operation.results_commit {o : Operation} (h : o.kind = .commit) : o.results = match o.result with
    | .committed n => if o.targets.any fun t => decide (t.flag = .aborted) then [] else byte1 n
    | _ => [] := by
  simp only [Operation.results, h, ← Operation.aborted_iff]
  by_cases hs : o.status = .aborted
  · simp only [hs, if_true]
    cases o.result <;> rfl
  · simp only [hs, if_false]
    cases hst : o.status with
    | aborted => exact absurd hst hs
    | _ => cases o.result <;> rfl

/-- A timing select answers its reason, the source and the state, unless it was aborted (R128, R129). -/
theorem Operation.results_timing {o : Operation} (h : o.kind = .timing) : o.results = match o.result with
    | .timing reason source state =>
      if o.targets.any fun t => decide (t.flag = .aborted) then [] else [reason.code, source.code, state.code]
    | _ => [] := by
  simp only [Operation.results, h, ← Operation.aborted_iff]
  by_cases hs : o.status = .aborted
  · simp only [hs, if_true]
    cases o.result <;> rfl
  · simp only [hs, if_false]
    cases hst : o.status with
    | aborted => exact absurd hst hs
    | _ => cases o.result <;> rfl

/-- The byte of a flush for one channel, read from the targets that are done. -/
theorem Operation.flushByte_eq (o : Operation) (k : Chan) : o.flushByte k =
    match (o.targets.filter fun t => decide (t.flag = .done)).find? fun t => decide (t.chan = k) with
    | some ⟨_, _, some .channel⟩ => 0x00
    | some ⟨_, _, some .window⟩ => 0x03
    | _ => 0xFF := by
  have hfind : (o.targets.find? fun t => decide (t.chan = k) && decide (t.flag = .done)) =
      (o.targets.filter fun t => decide (t.flag = .done)).find? fun t => decide (t.chan = k) := by
    rw [List.find?_filter]
    simp only [Bool.and_comm, decide_eq_true_eq, Bool.decide_and]
  unfold Operation.flushByte
  rw [hfind]
  cases (o.targets.filter fun t => decide (t.flag = .done)).find? fun t => decide (t.chan = k) with
  | none => rfl
  | some t =>
    obtain ⟨_, _, p⟩ := t
    cases p with
    | none => rfl
    | some x => cases x <;> rfl

/-- Settles O16: the cases of the queue and the uplink, and of an operation by its kind. -/
theorem replyEntersQueue : Obligations.ReplyEntersQueue := by
  intro d
  refine ⟨fun tag kind st rs => ⟨fun h => Device.answer_of_busy h tag kind st rs, fun hp hu hr => ?_,
    fun r rest hp hu hr => Device.answer_of_idle hp hu (by rw [hr]; rfl)⟩,
    fun c flag performed result before after o ho hdistinct => ?_⟩
  · rw [Device.answer_of_idle (r := ⟨tag, st, kind, rs⟩) (rest := []) hp hu (by rw [hr]; rfl)]
    cases d
    subst hr
    rfl
  · intro o' done aborted failed flushed answered ends
    have hsettle : o.settle c flag performed result = o' := by
      simp only [Operation.settle, o']
      exact congrArg (fun ts => Operation.mk o.tag o.kind ts _) (List.map_congr_left fun t _ => Target.settle_eq ..)
    have hends : ends = if o'.complete then ({ d with ops := before ++ after } : Device).enterReply o'.reply
        else { d with ops := before ++ o' :: after } :=
      hsettle ▸ Device.settleOp_of_distinct (d := d) ho hdistinct
    refine ⟨fun hclear => ?_, fun hdone => ?_⟩
    · obtain ⟨t, ht, hf⟩ := hclear
      rw [hends, if_neg fun hc => (Operation.complete_iff o').1 hc t ht hf]
    · have hstatus : o'.status = if aborted then .aborted else if failed then .failed else .ok := Operation.status_eq o'
      have haborted : o'.status = .aborted ↔ aborted = true := Operation.aborted_iff o'
      have hchans : o'.targets.map (·.chan) = o.targets.map (·.chan) := by
        simp only [o', List.map_map]
        refine List.map_congr_left fun t _ => ?_
        simp only [Function.comp]
        split <;> rfl
      rw [hends, if_pos ((Operation.complete_iff o').2 hdone)]
      have hreply : ∀ {kind : Byte} {rs : List Byte}, o'.kind.code = kind → o'.results = rs →
          ({ d with ops := before ++ after } : Device).enterReply o'.reply = answered kind rs := by
        rintro _ _ rfl rfl
        simp only [answered, ← hstatus]
        rfl
      cases hk : o.kind with
      | stop => exact hreply (by simp [o', hk]; rfl) (by simp [Operation.results, o', hk])
      | commit => exact hreply (by simp [o', hk]; rfl) (Operation.results_commit hk)
      | refresh scope => exact hreply (by simp [o', hk]; rfl) (by simp [Operation.results, o', hk]; rfl)
      | flush asked =>
        refine hreply (by simp [o', hk]; rfl) ?_
        have hbytes : allChans.map o'.flushByte = ([0, 1, 2, 3] : List Chan).map flushed :=
          List.map_congr_left fun k _ => Operation.flushByte_eq o' k
        rw [← hbytes, ← hchans]
        simp only [Operation.results, o', hk]
        rfl
      | timing => exact hreply (by simp [o', hk]; rfl) (Operation.results_timing hk)

end Sys2Proof.Machine
end


section
/-! PROOFS. Resets and start-up, cue edges, and refusals by kind and length (R163, R178, R181, R182). -/

namespace Sys2Proof.Machine

variable {s : State} {d : Device}

/-! ## Resets (R181, R182) -/

theorem strapRate_eq (s1 s0 : Bool) : strapRate s1 s0 =
    if s1 then (if s0 then 2000000 else 921600) else (if s0 then 460800 else 115200) := by
  cases s1 <;> cases s0 <;> rfl

/-- Settles O20: a reset begins and ends at once. -/
theorem deviceResetCarriedOut : Obligations.DeviceResetCarriedOut := by
  intro s tag p h
  rw [← strapRate_eq]
  exact State.onCommand_of_ready h _ _ _

/-- Settles O54: each reset from its definition, and the link that is down. -/
theorem resetHoldsAndLinkIgnores : Obligations.ResetHoldsAndLinkIgnores := by
  intro s t
  refine ⟨rfl, rfl, rfl, fun hp i f hi => ?_, fun hp hf b => ?_⟩
  · rw [exec_of_commandFrame hi, Device.deliver_of_down hp]
  · have hdown : (s.dev.arrive t).byteArrives b = s.dev.arrive t := if_neg (by simp only [Device.linkUp, decide_eq_true_eq]; exact hp)
    change s.onEvent t (Device.byteArrives b) = _
    simp only [State.onEvent, State.onDevice, hdown, Device.settle_nil (d := s.dev.arrive t) hf, ite_self]

theorem supplyReturns_of_good (h : d.supplyGood = true) (s1 s0 : Bool) : d.supplyReturns s1 s0 = d := by
  simp [Device.supplyReturns, h]

theorem supplyReturns_of_asserted (h : d.supplyGood = false) (hpin : d.pinAsserted = true) (s1 s0 : Bool) :
    d.supplyReturns s1 s0 = { d with supplyGood := true, strap1 := s1, strap0 := s0 } := by
  simp [Device.supplyReturns, h, hpin]

theorem supplyReturns_of_released (h : d.supplyGood = false) (hpin : d.pinAsserted = false) (s1 s0 : Bool) :
    d.supplyReturns s1 s0 =
      ({ d with supplyGood := true, pinAsserted := false, strap1 := s1, strap0 := s0 } : Device).endReset .power := by
  simp [Device.supplyReturns, h, hpin]

theorem pinRises_of_released (h : d.pinAsserted = false) (s1 s0 : Bool) : d.pinRises s1 s0 = d := by
  simp [Device.pinRises, h]

theorem pinRises_of_bad (h : d.pinAsserted = true) (hg : d.supplyGood = false) (s1 s0 : Bool) :
    d.pinRises s1 s0 = { d with pinAsserted := false, strap1 := s1, strap0 := s0 } := by
  simp [Device.pinRises, h, hg]

theorem pinRises_of_good (h : d.pinAsserted = true) (hg : d.supplyGood = true) (s1 s0 : Bool) :
    d.pinRises s1 s0 =
      ({ d with supplyGood := true, pinAsserted := false, strap1 := s1, strap0 := s0 } : Device).endReset .pin := by
  simp [Device.pinRises, h, hg]

theorem due_starting_iff : d.due .starting = true ↔ ∃ since, d.phase = .starting since ∧ since + 1080000 ≤ d.now := by
  unfold Device.due
  cases h : d.phase with
  | starting since =>
    simp only [decide_eq_true_eq, Phase.starting.injEq, exists_eq_left']
    rfl
  | held => simp
  | operating => simp

/-- Settles O55: each end of a reset by the supply and the pin, and the STARTING period by the clock. -/
theorem resetEndsAndStarts : Obligations.ResetEndsAndStarts := by
  intro s t s1 s0 d rate begun
  have hnext : ∀ {f : Device → Device} {d' : Device}, f d = d' → s.onPin t f = .next { s with dev := d' } :=
    fun {f d'} h => by
      rw [← h]
      rfl
  have hend : ∀ {d' : Device}, d.expire .starting = d' → d'.fifo = s.dev.fifo → s.dev.phase ≠ .held → s.dev.fifo = [] →
      exec (.startingEnd t) s = .next { s with dev := d' } := fun h hf hp hq =>
    h ▸ State.onEvent_of_quiet ⟨hp, hq⟩ t _ (by rw [show d.expire .starting = _ from h, hf])
  have hbegun : ∀ {d' : Device} {cause : ResetCause},
      d' = ({ d with supplyGood := true, pinAsserted := false, strap1 := s1, strap0 := s0 } : Device).endReset cause →
        Host.Outcome.next { s with dev := d' } = begun cause := by
    rintro _ cause rfl
    simp only [begun, rate, Device.endReset, strapRate_eq]
  refine ⟨fun hg hpin => hbegun (supplyReturns_of_released (d := d) hg hpin s1 s0),
    fun hg hpin => hnext (supplyReturns_of_asserted (d := d) hg hpin s1 s0),
    fun hg => hnext (supplyReturns_of_good (d := d) hg s1 s0),
    fun hpin hg => hbegun (pinRises_of_good (d := d) hpin hg s1 s0),
    fun hpin hg => hnext (pinRises_of_bad (d := d) hpin hg s1 s0),
    fun hpin => hnext (pinRises_of_released (d := d) hpin s1 s0), fun since hp ht hf => ?_, fun h hf => ?_⟩
  · refine hend ((Device.expire_of_due (d := d) (due_starting_iff.2 ⟨since, hp, ht⟩)).trans ?_) rfl (by simp [hp]) hf
    have hp : d.phase = .starting since := hp
    simp only [Device.fire, Device.startingEnds, hp]
    rfl
  · have hdue : d.due .starting = false := by
      rw [← Bool.not_eq_true, due_starting_iff]
      rintro ⟨since, hp, hle⟩
      exact absurd hle (Nat.not_le.2 (h since hp))
    have hexpire := Device.expire_of_not_due hdue
    change s.onEvent t (Device.expire .starting) = _
    simp only [State.onEvent, State.onDevice, show (s.dev.arrive t).expire .starting = s.dev.arrive t from hexpire,
      Device.settle_nil (d := s.dev.arrive t) hf, ite_self]
    rfl

/-! ## Cue edges (R178) -/

/-- The bit of one line. -/
theorem cueMask_single (n : CueNo) : (cueMask fun m => decide (m = n)) = BitVec.ofNat 8 (2 ^ n.val) := by
  fin_cases n <;> rfl

/-- An edge that is active, in the levels that make it: input on, not driven low, the outside moved, and toward the level of
the polarity (R178). -/
theorem edge_iff : ∀ input drives outside high level : Bool,
    ((if input then high && !drives else !level) ≠ (if input then outside && !drives else !level) ∧
      decide ((if input then high && !drives else !level) = level) = true) ↔
    (input && !drives && decide (outside ≠ high) && decide (high = level)) = true := by
  decide

/-- What the outside does at a line that it moves: nothing but that, or the edge by the line's function. -/
theorem Device.outsideLevel_eq (n : CueNo) (high : Bool) (d : Device) :
    d.outsideLevel n high =
      if (d.cue n).inputOn && !d.drives n && decide (d.cueOutside[n] ≠ high) && decide (high = (d.cue n).polarity.level) then
        ({ d with cueOutside := d.cueOutside.set n high } : Device).activeEdge n
      else { d with cueOutside := d.cueOutside.set n high } := by
  have hnew : ({ d with cueOutside := d.cueOutside.set n high } : Device).sensed n =
      if (d.cue n).inputOn then high && !d.drives n else !(d.cue n).polarity.level := by
    simp only [Device.sensed, Device.lineLevel, Device.cue, Fin.getElem_fin, Vector.getElem_set_self]
    rfl
  have hold : d.sensed n = if (d.cue n).inputOn then d.cueOutside[n] && !d.drives n else !(d.cue n).polarity.level := rfl
  unfold Device.outsideLevel Device.edgeSince Device.cueActive
  dsimp only
  rw [hnew, hold, show ({ d with cueOutside := d.cueOutside.set n high } : Device).cue n = d.cue n from rfl]
  exact if_congr (edge_iff ..) rfl rfl

/-- Settles O53, by the line's record and its function. -/
theorem cueEdgeByFunction : Obligations.CueEdgeByFunction := by
  intro s t n high hf r moved edge done
  have hdone : ∀ {d' : Device}, (s.dev.arrive t).outsideLevel n high = d' → d'.fifo = s.dev.fifo → done d' := by
    rintro _ rfl h
    exact congrArg (fun d' => Host.Outcome.next { s with dev := d' }) (Device.settle_nil (h.trans hf))
  have hmoved : edge = true → (s.dev.arrive t).outsideLevel n high = moved.activeEdge n := fun he =>
    (Device.outsideLevel_eq n high (s.dev.arrive t)).trans (if_pos he)
  refine ⟨fun he => ?_, fun he hr => ?_, fun c he hr => ?_, fun he hg hm => ?_⟩
  · exact hdone ((Device.outsideLevel_eq n high (s.dev.arrive t)).trans
      (if_neg (Bool.eq_false_iff.1 he))) rfl
  all_goals have hr' : (moved.cue n).function = r.function := rfl
  · refine hdone ((hmoved he).trans ?_) ((Device.fifo_of_shell (Device.raise_shell ..)).trans rfl)
    rw [Device.activeEdge, hr', hr, ← cueMask_single]
  · refine hdone ((hmoved he).trans ?_) rfl
    rw [Device.activeEdge, hr', hr]
    rfl
  · refine hdone ((hmoved he).trans ?_) rfl
    unfold Device.activeEdge
    rw [hr']
    split
    · exact absurd ‹_› hg
    · exact absurd ‹_› (hm _)
    · rfl

end Sys2Proof.Machine
end


section
/-! PROOFS. Refusals by kind and length, and the commands on a channel that act at once: CHANNEL_CONFIG, CHANNEL_STATUS and
CHANNEL_FREEZE (R142, R150, R151, R163). -/

namespace Sys2Proof.Machine

variable {s : State} {d : Device} {tag : Byte} {c : Chan}

/-! ## Refusals by kind and length (R163) -/

/-- A KIND that is not assigned is answered UNKNOWN. -/
theorem Device.takeFrame_of_unassigned {f : Command} (h : f.kind ∉ Kind.assigned) :
    d.takeFrame f = d.answer f.tag f.kind .unknown [] := by
  have hne : ∀ k ∈ Kind.assigned, f.kind.toNat ≠ k.toNat := fun k hk e => h (BitVec.eq_of_toNat_eq e ▸ hk)
  simp only [Kind.assigned, List.forall_mem_cons] at hne
  unfold Device.takeFrame
  split
  case h_28 => rfl
  all_goals
    rename_i heq
    simp [heq, Kind.identify, Kind.deviceReset, Kind.channelConfig, Kind.channelStart, Kind.channelStop, Kind.channelReset,
      Kind.channelStatus, Kind.channelFreeze, Kind.profileWrite, Kind.profileRead, Kind.profileErase, Kind.planStageClear,
      Kind.planStageAdd, Kind.planCommit, Kind.planRead, Kind.contextRefresh, Kind.historyFlush, Kind.timingSelect,
      Kind.droplogRead, Kind.droplogClear, Kind.droplogWatermark, Kind.noticeLevel, Kind.noticeWithdraw, Kind.noticePoll,
      Kind.cueConfig, Kind.cueRead, Kind.cueSet] at hne

theorem stageAddLength_iff (n : Nat) : stageAddLength n = true ↔ ∃ k, 1 ≤ k ∧ k ≤ 8 ∧ n = 1 + 10 * k := by
  simp only [stageAddLength, Bool.and_eq_true, decide_eq_true_eq]
  constructor
  · rintro ⟨⟨h11, h81⟩, hmod⟩
    exact ⟨(n - 1) / 10, by omega, by omega, by omega⟩
  · rintro ⟨k, h1, h8, rfl⟩
    omega

theorem noticeLevelLength_iff (n : Nat) : (n % 2 ≠ 0 ∨ n = 0 ∨ 56 < n) ↔ ¬ ∃ k, 1 ≤ k ∧ k ≤ 28 ∧ n = 2 * k := by
  constructor
  · rintro h ⟨k, h1, h28, rfl⟩
    omega
  · intro h
    by_contra hn
    exact h ⟨n / 2, by omega, by omega, by omega⟩

theorem noticeWithdrawLength_iff (n : Nat) : (n = 0 ∨ 28 < n) ↔ ¬ (1 ≤ n ∧ n ≤ 28) := by omega

/-- A payload whose length the layout of its kind does not allow is answered LENGTH. -/
theorem Device.takeFrame_of_length {f : Command} (ha : f.kind ∈ Kind.assigned) (hr : f.kind ≠ Kind.deviceReset)
    (hl : ¬ layoutAllows f.kind f.payload.length) : d.takeFrame f = d.answer f.tag f.kind .length [] := by
  obtain ⟨kind, tag, p⟩ := f
  simp only [Kind.assigned, List.mem_cons, List.not_mem_nil, or_false] at ha
  dsimp only at ha hr hl ⊢
  rcases ha with rfl | rfl | rfl | rfl | rfl | rfl | rfl | rfl | rfl | rfl | rfl | rfl | rfl | rfl | rfl | rfl | rfl | rfl |
    rfl | rfl | rfl | rfl | rfl | rfl | rfl | rfl | rfl
  · exact if_pos hl
  · exact absurd rfl hr
  · exact if_pos hl
  · exact if_pos hl
  · exact if_pos hl
  · exact if_pos hl
  · exact if_pos hl
  · exact if_pos hl
  · exact if_pos hl
  · exact if_pos hl
  · exact if_pos hl
  · exact if_pos hl
  · have hn : stageAddLength p.length = false := Bool.eq_false_iff.2 fun h => hl ((stageAddLength_iff _).1 h)
    exact if_pos (by rw [hn]; rfl)
  · exact if_pos hl
  · exact if_pos hl
  · exact if_pos hl
  · exact if_pos hl
  · exact if_pos hl
  · exact if_pos hl
  · exact if_pos hl
  · exact if_pos hl
  · exact if_pos ((noticeLevelLength_iff _).2 hl)
  · exact if_pos ((noticeWithdrawLength_iff _).2 hl)
  · exact if_pos hl
  · exact if_pos hl
  · exact if_pos hl
  · exact if_pos hl

/-- Settles O17, by the kind. -/
theorem unknownAndLengthRefused : Obligations.UnknownAndLengthRefused := by
  intro s i f hready hi
  rw [exec_of_commandFrame hi, Device.deliver_of_ready hready]
  exact ⟨fun h => by rw [Device.takeFrame_of_unassigned h], fun ha hr hl => by rw [Device.takeFrame_of_length ha hr hl]⟩

/-! ## CHANNEL_CONFIG (R142) -/

theorem exec_channelConfig_of_ready (h : s.dev.Ready) (tag : Byte) (p : List Byte) :
    exec (.channelConfig tag p) s = .next { s with dev := s.dev.takeChannelConfig tag p } :=
  State.onCommand_of_ready h _ _ _

/-- What CHANNEL_CONFIG does with a payload that holds its items (R142). -/
theorem Device.takeChannelConfig_of_items (ht : d.tagInUse tag = false) (c : Chan) (y : System) {prof hold : Nat} (use : Bool)
    (hprof : prof ≤ 31) (hhold : hold < 65536) :
    d.takeChannelConfig tag ([BitVec.ofNat 8 c.val, systemCode y] ++ byte1 prof ++ byte2 hold ++ [onOff use]) =
      if (d.chan c).state ≠ .off ∧ (d.chan c).state ≠ .ready then d.answer tag Kind.channelConfig .state []
      else (d.configure c ⟨y, prof, min 250 hold, use⟩).answer tag Kind.channelConfig .ok
        ([systemCode y] ++ byte1 prof ++ byte2 (min 250 hold) ++ [onOff use]) := by
  let p := [BitVec.ofNat 8 c.val, systemCode y] ++ byte1 prof ++ byte2 hold ++ [onOff use]
  have hlen : p.length = 6 := rfl
  have hchan : chanOf (byteAt p 0) = some c := chanOf_byteAt_chan c _
  have hsystem : systemOf (byteAt p 1) = some y := systemOf_code y
  have huse : onOffOf (byteAt p 5) = some use := onOffOf_onOff use
  have hid : byteAt p 2 = prof := byteAt_byte1 (n := prof) (by omega) (byte2 hold ++ [onOff use])
  have hlimit : wordAt p 3 = hold := wordAt_byte2 hhold [onOff use]
  change d.takeChannelConfig tag p = _
  unfold Device.takeChannelConfig
  rw [if_neg (not_not.2 hlen), hchan, hsystem, huse]
  dsimp only
  rw [hid, hlimit, if_neg (Nat.not_lt.2 hprof), Device.unlessTagged_of_free ht]
  rfl

theorem chanOf_eq_some {n : Nat} (h : chanOf n = some c) : n ≤ 3 := by
  unfold chanOf at h
  split at h
  · omega
  · simp at h

theorem onOffOf_eq_some {n : Nat} {b : Bool} (h : onOffOf n = some b) : n ≤ 1 := by
  unfold onOffOf at h
  split at h <;> simp_all

theorem systemOf_eq_some {n : Nat} {y : System} (h : systemOf n = some y) : n ≤ 1 := by
  unfold systemOf at h
  split at h <;> simp_all

/-- An item out of its range refuses the whole CHANNEL_CONFIG. -/
theorem Device.takeChannelConfig_of_range {channel system profile hi lo code : Byte}
    (h : 3 < channel.toNat ∨ 1 < system.toNat ∨ 31 < profile.toNat ∨ 1 < code.toNat) :
    d.takeChannelConfig tag [channel, system, profile, hi, lo, code] = d.answer tag Kind.channelConfig .range [] := by
  unfold Device.takeChannelConfig
  rw [if_neg (by simp)]
  split
  · rename_i hc hy hu
    rw [if_pos]
    have hc := chanOf_eq_some hc
    have hy := systemOf_eq_some hy
    have hu := onOffOf_eq_some hu
    simp only [byteAt_cons_zero, byteAt_cons_succ] at hc hy hu ⊢
    omega
  · rfl

theorem Device.configure_of_same {y : Settings} (h : (d.chan c).settings.system = y.system) :
    d.configure c y = d.setChan c { d.chan c with state := .ready, settings := y } := by
  simp [Device.configure, h, Device.modChan]

/-- Settles O21, by the channel's state and the ranges. -/
theorem channelConfigStoresItems : Obligations.ChannelConfigStoresItems := by
  intro s tag c prof hold use hready htag hprof hhold
  simp only [exec_channelConfig_of_ready hready, Device.takeChannelConfig_of_items htag c _ use hprof hhold]
  refine ⟨fun hs => ?_, fun hoff hr => ?_, fun channel system profile hi lo code h => ?_⟩
  · rw [if_neg (by tauto), Device.configure_of_same (y := ⟨_, prof, min 250 hold, use⟩) rfl]
    rfl
  · rw [if_pos ⟨hoff, hr⟩]
    rfl
  · rw [Device.takeChannelConfig_of_range h]
    rfl

/-- A change of system reaches the generator, and TIMING is raised where it was LOCKED (R131). -/
theorem Device.configure_of_changed {y : Settings} (h : (d.chan c).settings.system ≠ y.system) :
    d.configure c y =
      let changed := d.setChan c { d.chan c with
        state := .ready, settings := y, gen := (d.chan c).gen.reconfigure y.system d.now }
      match (d.chan c).gen.state with
      | .settled (.locked src) => changed.raise (.timing c) (.timing src.source .holdover .config)
      | _ => changed := by
  unfold Device.configure Device.reconfigureTiming
  simp only [h, ne_eq, not_false_eq_true, decide_true, if_true, Device.chan_modChan_self]
  cases hs : (d.chan c).gen.state with
  | settled p =>
    cases p with
    | locked src =>
      simp [Device.modChan, Device.raiseTiming, Generator.reconfigure, hs, TimingState.source, TimingState.name]
    | _ => simp [Device.modChan]
  | acquire a => simp [Device.modChan]

/-- What a change of system leaves of a generator (R131, R132). -/
theorem Generator.reconfigure_parts (g : Generator) (y : System) (now : Ticks) :
    (g.reconfigure y now).lastOut = g.lastOut ∧ (g.reconfigure y now).lastInput = g.lastInput ∧
    (g.state = .settled .free → (g.reconfigure y now).state = .settled .free) ∧
    (∀ src, g.state = .settled (.locked src) →
      (g.reconfigure y now).state = .settled (.holdover src) ∧ (g.reconfigure y now).kept = some y.period) ∧
    (∀ src, g.state = .settled (.holdover src) →
      (g.reconfigure y now).state = .settled (.holdover src) ∧ (g.reconfigure y now).kept = some y.period) ∧
    ∀ a, g.state = .acquire a → ∃ a', (g.reconfigure y now).state = .acquire a' ∧ a'.run = 0 ∧ a'.seen = false ∧
      a'.began = now ∧ a'.target = a.target ∧ a'.commanded = a.commanded ∧
      ∀ src, a.prior = .locked src → a'.prior = .holdover src ∧ a'.priorKept = some y.period := by
  refine ⟨?_, ?_, fun h => ?_, fun src h => ?_, fun src h => ?_, fun a h => ?_⟩
  · unfold Generator.reconfigure
    split <;> rfl
  · unfold Generator.reconfigure
    split <;> rfl
  · simp [Generator.reconfigure, h]
  · simp [Generator.reconfigure, h]
  · simp [Generator.reconfigure, h]
  · simp only [Generator.reconfigure, h]
    exact ⟨_, rfl, rfl, rfl, rfl, rfl, rfl, fun src hp => by simp [hp]⟩

/-- Settles O22, by the state of the generator. -/
theorem systemChangeReachesTiming : Obligations.SystemChangeReachesTiming := by
  intro s tag c y prof hold use hready htag hprof hhold hs hy g
  let changed := s.dev.setChan c { s.dev.chan c with
    state := .ready, settings := ⟨y, prof, min 250 hold, use⟩, gen := g.reconfigure y s.dev.now }
  let raised := match g.state with
    | .settled (.locked src) => changed.raise (.timing c) (.timing src.source .holdover .config)
    | _ => changed
  have hexec : exec (.channelConfig tag
      ([BitVec.ofNat 8 c.val, systemCode y] ++ byte1 prof ++ byte2 hold ++ [onOff use])) s = .next { s with
        dev := raised.answer tag 0x10 .ok ([systemCode y] ++ byte1 prof ++ byte2 (min 250 hold) ++ [onOff use]) } := by
    rw [exec_channelConfig_of_ready hready, Device.takeChannelConfig_of_items htag c y use hprof hhold, if_neg (by tauto),
      Device.configure_of_changed hy]
    rfl
  have hworks : Works c s.dev raised := by
    dsimp only [raised]
    split
    · exact (Works.setChan s.dev c _).trans (.raise c _ _ _)
    · exact .setChan s.dev c _
  have hsame : raised.chan c = changed.chan c ∧ raised.ops = s.dev.ops ∧ raised.dropLog = s.dev.dropLog ∧
      raised.overflow = s.dev.overflow := by
    dsimp only [raised]
    split
    · exact ⟨by simp, by simp [changed], by simp [changed], by simp [changed]⟩
    · exact ⟨rfl, rfl, rfl, rfl⟩
  obtain ⟨hchan, hops, hlog, hover⟩ := hsame
  refine ⟨_, g.reconfigure y s.dev.now, hexec, ?_, ?_, ?_, ?_, ?_, ?_, ?_⟩
  · rw [Device.answer_chan, hchan, Device.chan_setChan_self]
  · have hset : s.dev.setChan c (changed.chan c) = changed := by simp [changed]
    simp only [Device.answer_chan, hchan, hset]
    rfl
  · exact Device.keepsRest_of_shell ((Device.answer_shell ..).trans hworks.shell) fun c' hc =>
      (Device.answer_chan ..).trans (hworks.others c' hc)
  · simpa using hops
  · simpa using hlog
  · simpa using hover
  · exact Generator.reconfigure_parts g y s.dev.now

/-! ## CHANNEL_STATUS (R150) -/

theorem exec_channelStatus_of_ready (h : s.dev.Ready) (tag : Byte) (p : List Byte) :
    exec (.channelStatus tag p) s = .next { s with dev := s.dev.takeChannelStatus tag p } :=
  State.onCommand_of_ready h _ _ _

theorem exec_channelFreeze_of_ready (h : s.dev.Ready) (tag : Byte) (p : List Byte) :
    exec (.channelFreeze tag p) s = .next { s with dev := s.dev.takeChannelFreeze tag p } :=
  State.onCommand_of_ready h _ _ _

/-- The pending flags, bit by bit. -/
theorem Device.pendingByte_eq (d : Device) (c : Chan) : d.pendingByte c =
    byte1 ((d.isPending .commit c).toNat + 2 * (d.isPending .refresh c).toNat + 4 * (d.isPending .flush c).toNat +
      8 * (d.isPending .stop c).toNat) := by
  unfold Device.pendingByte
  cases d.isPending .commit c <;> cases d.isPending .refresh c <;> cases d.isPending .flush c <;>
    cases d.isPending .stop c <;> rfl

theorem optional_index (x : Option Selection) : optional byte1 (Selection.indexOf x) =
    match x with
    | some x => [1, BitVec.ofNat 8 x.index]
    | none => [0, 0] := by
  cases x <;> rfl

theorem optional_count (k : Option Count) : optional byte4 (k.map (·.count)) =
    match k with
    | some k => 1 :: byte4 k.count
    | none => [0, 0, 0, 0, 0] := by
  cases k <;> rfl

/-- Settles O26: the bytes field by field. -/
theorem channelStatusReports : Obligations.ChannelStatusReports := by
  intro s tag c hready htag ch rs
  have hrs : s.dev.statusBytes c = rs := by
    unfold Device.statusBytes
    dsimp only
    rw [optional_index, optional_count, Device.pendingByte_eq]
    simp only [rs, ch, Settings.bytes, byte1, contextBytes, List.append_assoc, List.cons_append, List.nil_append]
    rfl
  refine ⟨?_, ?_, fun b hb => ?_⟩
  · have hcontext : (contextBytes ch.context).length = 3 := by
      unfold contextBytes
      split <;> rfl
    have hindex : (optional byte1 (Selection.indexOf ch.reader.selection)).length = 2 := rfl
    have hcount : (optional byte4 (ch.reader.lastCount.map (·.count))).length = 5 := rfl
    rw [← hrs]
    simp only [Device.statusBytes, List.length_append]
    rw [hcontext, hindex, hcount]
    rfl
  · rw [exec_channelStatus_of_ready hready, Device.takeChannelStatus, Device.withChannel_of_chan,
      Device.unlessTagged_of_free htag, hrs]
    rfl
  · rw [exec_channelStatus_of_ready hready, Device.takeChannelStatus, Device.withChannel_of_three_lt hb]
    rfl

/-! ## CHANNEL_FREEZE (R151) -/

theorem onOffOf_of_two_le {n : Nat} (h : 2 ≤ n) : onOffOf n = none := by
  unfold onOffOf
  split
  · omega
  · omega
  · rfl

/-- Settles O27, by the channel number and the code. -/
theorem channelFreezeSetsFlag : Obligations.ChannelFreezeSetsFlag := by
  intro s tag c hready htag
  simp only [exec_channelFreeze_of_ready hready]
  refine ⟨fun b b' hb => ?_, fun on => ?_, fun b hb => ?_⟩
  · have hc : chanOf (byteAt [b, b'] 0) = none := chanOf_of_three_lt hb
    simp only [Device.takeChannelFreeze, hc]
    rfl
  · have hc : chanOf (byteAt [BitVec.ofNat 8 c.val, onOff on] 0) = some c := chanOf_byteAt_chan c _
    have hon : onOffOf (byteAt [BitVec.ofNat 8 c.val, onOff on] 1) = some on := onOffOf_onOff on
    simp only [Device.takeChannelFreeze, hc, hon, Device.unlessTagged_of_free htag]
    simp [Device.frozen, Device.setFreeze, Device.modChan]
    rfl
  · have hc : chanOf (byteAt [BitVec.ofNat 8 c.val, b] 0) = some c := chanOf_byteAt_chan c _
    have hon : onOffOf (byteAt [BitVec.ofNat 8 c.val, b] 1) = none := onOffOf_of_two_le hb
    simp only [Device.takeChannelFreeze, hc, hon]
    rfl

end Sys2Proof.Machine
end


section
/-! PROOFS. How a profile is laid out and read back, and PROFILE_WRITE (R38, R39, R168). -/

namespace Sys2Proof.Machine

variable {s : State} {d : Device} {tag : Byte}

/-! ## The profile layout (R168) -/

theorem byteAt_append (before l : List Byte) (i : Nat) : byteAt (before ++ l) (before.length + i) = byteAt l i := by
  simp [byteAt, List.getD_eq_getElem?_getD, List.getElem?_append_right]

theorem byteAt_append_length (before l : List Byte) : byteAt (before ++ l) before.length = byteAt l 0 :=
  byteAt_append before l 0

theorem wordAt_append (before l : List Byte) (i : Nat) : wordAt (before ++ l) (before.length + i) = wordAt l i := by
  simp only [wordAt, Nat.add_assoc, byteAt_append]

theorem wordAt_cons_succ (b : Byte) (p : List Byte) (i : Nat) : wordAt (b :: p) (i + 1) = wordAt p i := rfl
theorem byteAt_byte2_succ (n : Nat) (p : List Byte) (i : Nat) : byteAt (byte2 n ++ p) (i + 2) = byteAt p i := rfl
theorem wordAt_byte2_succ (n : Nat) (p : List Byte) (i : Nat) : wordAt (byte2 n ++ p) (i + 2) = wordAt p i := rfl

theorem modeOf_code (m : CadenceMode) : modeOf m.code.toNat = some m := by cases m <;> rfl
theorem filterOf_code (f : Filter) : filterOf f.code.toNat = some f := by cases f <;> rfl

/-- The 26 bytes of a profile with the border components as they are sent, before the clamp of R38. -/
def Profile.layout (q : Profile) (y cb cr : Nat) : List Byte := q.bytes.take 20 ++ byte2 y ++ byte2 cb ++ byte2 cr

theorem Profile.layout_append (q : Profile) (y cb cr : Nat) (after : List Byte) : q.layout y cb cr ++ after =
    q.mode.code :: BitVec.ofNat 8 q.phaseOffset :: (byte2 q.motionLow ++ (byte2 q.motionHigh ++
      (BitVec.ofNat 8 q.repeatThreshold :: BitVec.ofNat 8 q.combThreshold :: q.filter.code :: (byte2 q.cropX0 ++
      (byte2 q.cropWidth ++ (byte2 q.cropY0 ++ (byte2 q.cropHeight ++ (onOff q.conceal :: BitVec.ofNat 8 q.dropRun ::
      BitVec.ofNat 8 q.dropLevel :: (byte2 y ++ (byte2 cb ++ (byte2 cr ++ after))))))))))) := by
  simp [Profile.layout, Profile.bytes, byte1, byte2]

theorem Profile.bytes_eq_layout (q : Profile) : q.bytes = q.layout q.border.y.toNat q.border.cb.toNat q.border.cr.toNat := by
  simp [Profile.layout, Profile.bytes, byte1, byte2]

/-- The numbers of a profile fit their bytes. -/
structure Profile.FitsBytes (q : Profile) : Prop where
  phaseOffset : q.phaseOffset < 256
  motionLow : q.motionLow < 65536
  motionHigh : q.motionHigh < 65536
  repeatThreshold : q.repeatThreshold < 256
  combThreshold : q.combThreshold < 256
  cropX0 : q.cropX0 < 65536
  cropWidth : q.cropWidth < 65536
  cropY0 : q.cropY0 < 65536
  cropHeight : q.cropHeight < 65536
  dropRun : q.dropRun < 256
  dropLevel : q.dropLevel < 256

theorem toNat_byte {n : Nat} (h : n < 256) : (BitVec.ofNat 8 n).toNat = n := by
  rw [BitVec.toNat_ofNat]
  omega

/-- A profile laid out with a border is read back with that border clamped, where it keeps the ranges of R38. -/
theorem profileAt_layout {q : Profile} (h : q.FitsBytes) {y cb cr : Nat} (hy : y < 65536) (hcb : cb < 65536)
    (hcr : cr < 65536) (before after : List Byte) :
    profileAt (before ++ (q.layout y cb cr ++ after)) before.length =
      if q.inRange then some { q with border := ⟨borderOf y, borderOf cb, borderOf cr⟩ } else none := by
  unfold profileAt
  simp only [byteAt_append_length, byteAt_append, wordAt_append, Profile.layout_append, byteAt_cons_succ, wordAt_cons_succ, byteAt_cons_zero,
    byteAt_byte2_succ, wordAt_byte2_succ, wordAt_byte2 hy, wordAt_byte2 hcb, wordAt_byte2 hcr, wordAt_byte2 h.motionLow,
    wordAt_byte2 h.motionHigh, wordAt_byte2 h.cropX0, wordAt_byte2 h.cropWidth, wordAt_byte2 h.cropY0,
    wordAt_byte2 h.cropHeight, toNat_byte h.phaseOffset, toNat_byte h.repeatThreshold, toNat_byte h.combThreshold,
    toNat_byte h.dropRun, toNat_byte h.dropLevel, modeOf_code, filterOf_code, onOffOf_onOff]
  rfl

/-- The ranges of R38, one by one. -/
theorem Profile.inRange_iff (q : Profile) : q.inRange = true ↔
    q.phaseOffset ≤ 4 ∧ (q.mode = .force22 → q.phaseOffset ≤ 1) ∧
    q.motionLow ≤ 1022 ∧ q.motionLow < q.motionHigh ∧ q.motionHigh ≤ 1023 ∧
    1 ≤ q.repeatThreshold ∧ q.repeatThreshold ≤ 255 ∧ 1 ≤ q.combThreshold ∧ q.combThreshold ≤ 255 ∧
    q.cropX0 % 2 = 0 ∧ q.cropX0 ≤ 360 ∧
    q.cropWidth % 2 = 0 ∧ 360 ≤ q.cropWidth ∧ q.cropWidth ≤ 720 ∧ q.cropX0 + q.cropWidth ≤ 720 ∧
    q.cropY0 % 2 = 0 ∧ q.cropY0 ≤ 336 ∧
    q.cropHeight % 2 = 0 ∧ 240 ≤ q.cropHeight ∧ q.cropHeight ≤ 576 ∧ q.cropY0 + q.cropHeight ≤ 576 ∧
    8 ≤ q.dropRun ∧ q.dropRun ≤ 255 ∧ 4 ≤ q.dropLevel ∧ q.dropLevel ≤ 63 := by
  simp only [Profile.inRange, Bool.and_eq_true, decide_eq_true_eq]
  by_cases hm : q.mode = .force22
  · simp only [hm, if_true, true_imp_iff]
    omega
  · simp only [hm, if_false, false_imp_iff, true_and]
    omega

theorem Profile.fitsBytes_of_inRange {q : Profile} (h : q.inRange = true) : q.FitsBytes := by
  rw [Profile.inRange_iff] at h
  constructor <;> omega

/-- A component within the legal range is left by the clamp. -/
theorem borderOf_of_legal {v : Sample} (h : LegalSample v) : borderOf v.toNat = v := by
  obtain ⟨h4, h1019⟩ := h
  rw [borderOf, clampNat, Nat.min_eq_left h1019, Nat.max_eq_right h4, BitVec.ofNat_toNat, BitVec.setWidth_eq]

/-- Settles O30, from the layout read field by field and the clamp that a legal border passes. -/
theorem profileLayoutRoundTrip : Obligations.ProfileLayoutRoundTrip := by
  intro q before after hq hb
  obtain ⟨hy, hcb, hcr⟩ := hb
  have hword : ∀ v : Sample, v.toNat < 65536 := fun v => v.isLt.trans (by decide)
  have h := profileAt_layout (Profile.fitsBytes_of_inRange hq) (hword q.border.y) (hword q.border.cb) (hword q.border.cr)
    before after
  rw [if_pos hq, borderOf_of_legal hy, borderOf_of_legal hcb, borderOf_of_legal hcr] at h
  rw [List.append_assoc, q.bytes_eq_layout]
  exact h

/-! ## PROFILE_WRITE (R39) -/

theorem exec_profileWrite_of_ready (h : s.dev.Ready) (tag : Byte) (p : List Byte) :
    exec (.profileWrite tag p) s = .next { s with dev := s.dev.takeProfileWrite tag p } :=
  State.onCommand_of_ready h _ _ _

section ProfileWrite

variable {p : List Byte} {q : Profile}

theorem Device.takeProfileWrite_of_profile (hp : p.length = 27) (hslot : 1 ≤ byteAt p 0) (hmax : byteAt p 0 ≤ 31)
    (hq : profileAt p 1 = some q) (ht : d.tagInUse tag = false) :
    d.takeProfileWrite tag p =
      ({ d with profiles := d.profiles.setIfInBounds (byteAt p 0 - 1) (some q) } : Device).answer
        tag Kind.profileWrite .ok [] := by
  have hin : ¬ (byteAt p 0 = 0 ∨ 31 < byteAt p 0) := by omega
  simp only [Device.takeProfileWrite, hp, ne_eq, not_true_eq_false, if_false, hin, hq, Device.unlessTagged_of_free ht]
  rfl

theorem Device.takeProfileWrite_of_range (hp : p.length = 27)
    (h : byteAt p 0 = 0 ∨ 31 < byteAt p 0 ∨ profileAt p 1 = none) :
    d.takeProfileWrite tag p = d.answer tag Kind.profileWrite .range [] := by
  unfold Device.takeProfileWrite
  rw [if_neg (not_not.2 hp)]
  split
  · rfl
  · rename_i hin
    have hq : profileAt p 1 = none := by tauto
    rw [hq]

/-- A code beyond the last value of its enumeration is no profile. -/
theorem profileAt_of_code (h : 3 < byteAt p 1 ∨ 1 < byteAt p 9 ∨ 1 < byteAt p 18) : profileAt p 1 = none := by
  have hmode : ∀ {n : Nat} {m}, modeOf n = some m → n ≤ 3 := by
    intro n m hm
    unfold modeOf at hm
    split at hm <;> simp_all
  have hfilter : ∀ {n : Nat} {m}, filterOf n = some m → n ≤ 1 := by
    intro n m hm
    unfold filterOf at hm
    split at hm <;> simp_all
  unfold profileAt
  split
  · rename_i hm hf hc
    have hm := hmode hm
    have hf := hfilter hf
    have hc := onOffOf_eq_some hc
    simp only [Nat.reduceAdd] at hf hc
    omega
  · rfl

end ProfileWrite

/-- Settles O28, by the slot and the ranges. -/
theorem profileWriteFillsSlot : Obligations.ProfileWriteFillsSlot := by
  intro s tag slot q y cb cr hready htag hslot hy hcb hcr h1 h2 h3 h4 h5 h6 h7 h8 h9 h10 h11 p clamp
  have hp : p = byte1 slot ++ (q.layout y cb cr ++ []) := by
    simp only [p, Profile.layout, List.append_assoc, List.append_nil]
  have hat : profileAt p 1 = if q.inRange then some { q with border := ⟨borderOf y, borderOf cb, borderOf cr⟩ } else none :=
    hp ▸ profileAt_layout ⟨h1, h2, h3, h4, h5, h6, h7, h8, h9, h10, h11⟩ hy hcb hcr (byte1 slot) []
  have hb : byteAt p 0 = slot := by
    rw [hp]
    exact byteAt_byte1 hslot _
  have hlen : p.length = 27 := by
    rw [hp, Profile.layout_append]
    rfl
  simp only [exec_profileWrite_of_ready hready]
  refine ⟨fun hpos hmax hq => ?_, fun h => ?_, q.inRange_iff, fun w hw h => ?_⟩
  · rw [if_pos hq] at hat
    rw [Device.takeProfileWrite_of_profile hlen (hb ▸ hpos) (hb ▸ hmax) hat htag, hb]
    rfl
  · have hrange : byteAt p 0 = 0 ∨ 31 < byteAt p 0 ∨ profileAt p 1 = none := by
      rw [hb, hat]
      exact h.imp_right fun h => h.imp_right fun h => if_neg (by simp [h])
    rw [Device.takeProfileWrite_of_range hlen hrange]
    rfl
  · rw [Device.takeProfileWrite_of_range hw (.inr (.inr (profileAt_of_code h)))]
    rfl

end Sys2Proof.Machine
end


section
/-! PROOFS. The commands on notices and on cue lines (R172 to R174, R177 to R180). -/

namespace Sys2Proof.Machine

variable {s : State} {d : Device} {tag : Byte}

/-! ## NOTICE_LEVEL (R172) -/

theorem exec_noticeLevel_of_ready (h : s.dev.Ready) (tag : Byte) (p : List Byte) :
    exec (.noticeLevel tag p) s = .next { s with dev := s.dev.takeNoticeLevel tag p } :=
  State.onCommand_of_ready h _ _ _

theorem pairsOf_flatMap (pairs : List (Byte × Byte)) : pairsOf (pairs.flatMap fun q => [q.1, q.2]) = pairs := by
  induction pairs with
  | nil => rfl
  | cons q pairs ih => exact congrArg (q :: ·) ih

theorem length_flatMap_pair (pairs : List (Byte × Byte)) :
    (pairs.flatMap fun q => [q.1, q.2]).length = 2 * pairs.length := by
  induction pairs with
  | nil => rfl
  | cons q pairs ih =>
    rw [List.flatMap_cons, List.length_append, ih, List.length_cons, List.length_cons, List.length_cons, List.length_nil]
    omega

theorem noticeIndex_of_range {n : Nat} (h1 : 1 ≤ n) (h28 : n ≤ 28) : noticeIndex n = some ⟨n - 1, by omega⟩ :=
  dif_pos ⟨h1, h28⟩

theorem noticeIndex_isSome_iff {n : Nat} : (noticeIndex n).isSome = true ↔ 1 ≤ n ∧ n ≤ 28 := by
  unfold noticeIndex
  split <;> simp_all

/-- What one pair does to the record at a place. -/
theorem applyLevel_getElem (ns : Vector NoticeRecord 28) {q : Byte × Byte} (h1 : 1 ≤ q.1.toNat) (h28 : q.1.toNat ≤ 28)
    (h7 : q.2.toNat ≤ 7) (i : Fin 28) : (applyLevel ns q)[i] =
      if q.1.toNat = i.val + 1 then { ns[i] with level := ⟨q.2.toNat, by omega⟩ } else ns[i] := by
  have hlt : q.2.toNat < 8 := by omega
  rw [applyLevel, noticeIndex_of_range h1 h28]
  dsimp only
  rw [dif_pos hlt, Fin.getElem_fin, Vector.getElem_set]
  by_cases h : q.1.toNat = i.val + 1
  · simp [h]
  · have hi : q.1.toNat - 1 ≠ i.val := by omega
    rw [if_neg hi, if_neg h, Fin.getElem_fin]

/-- A pair of NOTICE_LEVEL within its ranges. -/
def LevelPair (q : Byte × Byte) : Prop := 1 ≤ q.1.toNat ∧ q.1.toNat ≤ 28 ∧ q.2.toNat ≤ 7

theorem pairInRange_iff (q : Byte × Byte) : pairInRange q = true ↔ LevelPair q := by
  simp [pairInRange, LevelPair, noticeIndex_isSome_iff, and_assoc]

theorem foldl_applyLevel_flags (pairs : List (Byte × Byte)) (h : ∀ q ∈ pairs, LevelPair q) (ns : Vector NoticeRecord 28)
    (i : Fin 28) : (pairs.foldl applyLevel ns)[i].raised = ns[i].raised ∧
      (pairs.foldl applyLevel ns)[i].superseded = ns[i].superseded := by
  induction pairs generalizing ns with
  | nil => exact ⟨rfl, rfl⟩
  | cons q pairs ih =>
    obtain ⟨⟨h1, h28, h7⟩, hrest⟩ := List.forall_mem_cons.1 h
    obtain ⟨hr, hs⟩ := ih hrest (applyLevel ns q)
    rw [List.foldl_cons, hr, hs, applyLevel_getElem ns h1 h28 h7]
    split <;> exact ⟨rfl, rfl⟩

theorem foldl_applyLevel_of_unnamed (pairs : List (Byte × Byte)) (h : ∀ q ∈ pairs, LevelPair q)
    (ns : Vector NoticeRecord 28) (i : Fin 28) (hi : ∀ q ∈ pairs, q.1.toNat ≠ i.val + 1) :
    (pairs.foldl applyLevel ns)[i] = ns[i] := by
  induction pairs generalizing ns with
  | nil => rfl
  | cons q pairs ih =>
    obtain ⟨⟨h1, h28, h7⟩, hrest⟩ := List.forall_mem_cons.1 h
    obtain ⟨hq, hi⟩ := List.forall_mem_cons.1 hi
    rw [List.foldl_cons, ih hrest _ hi, applyLevel_getElem ns h1 h28 h7, if_neg hq]

/-! ## NOTICE_WITHDRAW and NOTICE_POLL (R173, R174) -/

theorem exec_noticeWithdraw_of_ready (h : s.dev.Ready) (tag : Byte) (p : List Byte) :
    exec (.noticeWithdraw tag p) s = .next { s with dev := s.dev.takeNoticeWithdraw tag p } :=
  State.onCommand_of_ready h _ _ _

theorem exec_noticePoll_of_ready (h : s.dev.Ready) (tag : Byte) (p : List Byte) :
    exec (.noticePoll tag p) s = .next { s with dev := s.dev.takeNoticePoll tag p } :=
  State.onCommand_of_ready h _ _ _

theorem lowerNumber_getElem (ns : Vector NoticeRecord 28) {b : Byte} (h1 : 1 ≤ b.toNat) (h28 : b.toNat ≤ 28) (i : Fin 28) :
    (lowerNumber ns b)[i] = if b = BitVec.ofNat 8 (i.val + 1) then ns[i].lower else ns[i] := by
  have hb : b = BitVec.ofNat 8 (i.val + 1) ↔ b.toNat - 1 = i.val := by
    rw [← BitVec.toNat_inj, toNat_byte (by omega)]
    omega
  rw [lowerNumber, noticeIndex_of_range h1 h28]
  dsimp only
  rw [Fin.getElem_fin, Vector.getElem_set, if_congr hb rfl rfl]
  split
  · simp_all
  · rfl

theorem NoticeRecord.lower_lower (r : NoticeRecord) : r.lower.lower = r.lower := rfl

theorem foldl_lowerNumber (p : List Byte) (h : ∀ b ∈ p, 1 ≤ b.toNat ∧ b.toNat ≤ 28) (ns : Vector NoticeRecord 28)
    (i : Fin 28) : (p.foldl lowerNumber ns)[i] = if BitVec.ofNat 8 (i.val + 1) ∈ p then ns[i].lower else ns[i] := by
  induction p generalizing ns with
  | nil => rfl
  | cons b p ih =>
    obtain ⟨⟨h1, h28⟩, hrest⟩ := List.forall_mem_cons.1 h
    rw [List.foldl_cons, ih hrest, lowerNumber_getElem ns h1 h28]
    by_cases hb : b = BitVec.ofNat 8 (i.val + 1)
    · have hmem : BitVec.ofNat 8 (i.val + 1) ∈ b :: p := by simp [hb]
      rw [if_pos hb, if_pos hmem, NoticeRecord.lower_lower, ite_self]
    · have hmem : BitVec.ofNat 8 (i.val + 1) ∈ b :: p ↔ BitVec.ofNat 8 (i.val + 1) ∈ p := by
        simp [Ne.symm hb]
      rw [if_neg hb, if_congr hmem rfl rfl]

/-- The places of the raised sources with their details, in ascending number. -/
def raisedDetails (ns : Vector NoticeRecord 28) : List (Fin 28 × Detail) :=
  (List.finRange 28).filterMap fun i => ns[i].raised.map fun detail => (i, detail)

theorem raisedDetails_map_fst (ns : Vector NoticeRecord 28) :
    (raisedDetails ns).map Prod.fst = (List.finRange 28).filter fun i => ns[i].raised.isSome := by
  rw [raisedDetails, List.map_filterMap, ← List.filterMap_eq_filter]
  refine List.filterMap_congr fun i _ => ?_
  cases h : ns[i.val].raised <;> simp [h, Option.guard]

theorem mem_raisedDetails {ns : Vector NoticeRecord 28} {e : Fin 28 × Detail} (h : e ∈ raisedDetails ns) :
    ns[e.1].raised = some e.2 := by
  obtain ⟨i, _, hi⟩ := List.mem_filterMap.1 h
  obtain ⟨detail, hd, rfl⟩ := Option.map_eq_some_iff.1 hi
  exact hd

theorem raisedEntries_eq (ns : Vector NoticeRecord 28) : raisedEntries ns =
    (raisedDetails ns).map fun e => noticeEntry (e.1.val + 1) ns[e.1].level ns[e.1].superseded e.2 := by
  rw [raisedEntries, raisedDetails, List.map_filterMap]
  refine List.filterMap_congr fun i _ => ?_
  rw [raisedEntry, Option.map_map]
  rfl

/-- Settles O40, command by command. -/
theorem noticeCommandsServe : Obligations.NoticeCommandsServe := by
  intro s tag hready htag
  simp only [exec_noticeLevel_of_ready hready, exec_noticeWithdraw_of_ready hready, exec_noticePoll_of_ready hready]
  refine ⟨fun pairs hne hlen => ?_, fun p hne hlen h => ?_, fun p hlen h => ?_, ?_⟩
  · have hpos : pairs.length ≠ 0 := fun e => hne (List.length_eq_zero_iff.1 e)
    have hp : ¬ ((pairs.flatMap fun q => [q.1, q.2]).length % 2 ≠ 0 ∨ (pairs.flatMap fun q => [q.1, q.2]).length = 0 ∨
        56 < (pairs.flatMap fun q => [q.1, q.2]).length) := by
      rw [length_flatMap_pair]
      omega
    refine ⟨fun h => ?_, fun h => ?_⟩
    · have hall : (pairs.all pairInRange) = true := List.all_eq_true.2 fun q hq => (pairInRange_iff q).2 (h q hq)
      refine ⟨pairs.foldl applyLevel s.dev.notices, foldl_applyLevel_flags pairs h _, foldl_applyLevel_of_unnamed pairs h _,
        fun i before q after hpairs hq hafter => ?_, ?_⟩
      · subst hpairs
        obtain ⟨h1, h28, h7⟩ := h q (by simp)
        rw [List.foldl_append, List.foldl_cons, foldl_applyLevel_of_unnamed after (fun q' hq' => h q' (by simp [hq'])) _ i
          hafter, applyLevel_getElem _ h1 h28 h7, if_pos hq]
      · rw [Device.takeNoticeLevel, if_neg hp, pairsOf_flatMap, hall, if_neg (by simp), Device.unlessTagged_of_free htag]
        rfl
    · obtain ⟨q, hq, hbad⟩ := h
      have hall : (pairs.all pairInRange) = false := by
        rw [List.all_eq_false]
        refine ⟨q, hq, fun h => ?_⟩
        obtain ⟨h1, h28, h7⟩ := (pairInRange_iff q).1 h
        omega
      rw [Device.takeNoticeLevel, if_neg hp, pairsOf_flatMap, hall, if_pos (by simp)]
      rfl
  · have hpos : p.length ≠ 0 := fun e => hne (List.length_eq_zero_iff.1 e)
    have hall : (p.all fun n => (noticeIndex n.toNat).isSome) = true :=
      List.all_eq_true.2 fun b hb => noticeIndex_isSome_iff.2 (h b hb)
    refine ⟨p.foldl lowerNumber s.dev.notices, fun i hi => ?_, fun i hi => ?_, ?_⟩
    · rw [foldl_lowerNumber p h, if_pos hi]
      rfl
    · rw [foldl_lowerNumber p h, if_neg hi]
    · rw [Device.takeNoticeWithdraw, if_neg (by omega), hall, if_neg (by simp), Device.unlessTagged_of_free htag]
      rfl
  · obtain ⟨b, hb, hbad⟩ := h
    have hpos : p.length ≠ 0 := fun e => List.ne_nil_of_mem hb (List.length_eq_zero_iff.1 e)
    have hall : (p.all fun n => (noticeIndex n.toNat).isSome) = false := by
      rw [List.all_eq_false]
      refine ⟨b, hb, fun h => ?_⟩
      have := noticeIndex_isSome_iff.1 h
      omega
    rw [Device.takeNoticeWithdraw, if_neg (by omega), hall, if_pos (by simp)]
    rfl
  · refine ⟨raisedDetails s.dev.notices, raisedDetails_map_fst _, fun e he => mem_raisedDetails he, ?_⟩
    rw [Device.takeNoticePoll, if_neg (by simp), Device.unlessTagged_of_free htag]
    dsimp only
    rw [raisedEntries_eq, List.length_map, ← List.flatMap_def]
    rfl

/-! ## CUE_CONFIG (R177) -/

theorem exec_cueConfig_of_ready (h : s.dev.Ready) (tag : Byte) (p : List Byte) :
    exec (.cueConfig tag p) s = .next { s with dev := s.dev.takeCueConfig tag p } :=
  State.onCommand_of_ready h _ _ _

theorem polarityOf_onOff (low : Bool) : polarityOf (onOff low).toNat = some (if low then .low else .high) := by
  cases low <;> rfl

theorem cueNoOf_val (n : CueNo) : cueNoOf (BitVec.ofNat 8 n.val).toNat = some n := by
  rw [toNat_byte (by omega), cueNoOf, dif_pos n.isLt]

/-- What CUE_CONFIG does by the function that its codes name (R177). -/
theorem Device.takeCueConfig_of_codes (ht : d.tagInUse tag = false) (n : CueNo) {k b : Nat} (hk : k < 256) (hb : b < 256)
    (on low : Bool) :
    d.takeCueConfig tag ([BitVec.ofNat 8 n.val] ++ byte1 k ++ byte1 b ++ [onOff on, onOff low]) =
      match cueFunctionOf k b with
      | some (some function) =>
        if function.needsInput && !on then d.answer tag Kind.cueConfig .needsInput []
        else (d.configureCue n function on (if low then .low else .high)).answer tag Kind.cueConfig .ok []
      | _ => d.answer tag Kind.cueConfig .range [] := by
  let p := [BitVec.ofNat 8 n.val] ++ byte1 k ++ byte1 b ++ [onOff on, onOff low]
  have hlen : p.length = 5 := rfl
  have hn : cueNoOf (byteAt p 0) = some n := cueNoOf_val n
  have hfunction : cueFunctionOf (byteAt p 1) (byteAt p 2) = cueFunctionOf k b :=
    congrArg₂ cueFunctionOf (toNat_byte hk) (toNat_byte hb)
  have hon : onOffOf (byteAt p 3) = some on := onOffOf_onOff on
  have hlow : polarityOf (byteAt p 4) = some (if low then .low else .high) := polarityOf_onOff low
  change d.takeCueConfig tag p = _
  rw [Device.takeCueConfig, if_neg (not_not.2 hlen), hn, hfunction, hon, hlow]
  cases cueFunctionOf k b with
  | none => rfl
  | some x =>
    cases x with
    | none => rfl
    | some function =>
      dsimp only
      rw [Device.unlessTagged_of_free ht]

/-- The record that CUE_CONFIG leaves, by the function the line had. -/
theorem Device.configureCue_eq (n : CueNo) (function : CueFunction) (on : Bool) (polarity : Polarity) (d : Device) :
    d.configureCue n function on polarity = { d with
      cues := d.cues.set n ⟨function, on, polarity,
        match (d.cue n).function with
        | .general => (d.cue n).drivesLow
        | .editMark _ => (d.cue n).drivesLow
        | .freeze _ => (d.cue n).drivesLow
        | .tallyDropout k => (d.chan k).dropState
        | .tallyFilm k => (d.chan k).tracker.cadence.isFilm
        | .attention t => d.attention t⟩ } := by
  unfold Device.configureCue Device.drives
  cases (d.cue n).function <;> rfl

theorem cueFunctionOf_of_chan (c : Chan) : cueFunctionOf 1 c.val = some (some (.editMark c)) ∧
    cueFunctionOf 2 c.val = some (some (.freeze c)) ∧ cueFunctionOf 3 c.val = some (some (.tallyDropout c)) ∧
    cueFunctionOf 4 c.val = some (some (.tallyFilm c)) := by
  simp [cueFunctionOf]

theorem cueFunctionOf_of_level {t : Fin 8} (h : t ≠ 0) : cueFunctionOf 5 t.val = some (some (.attention t)) := by
  have hpos : 1 ≤ t.val := Nat.one_le_iff_ne_zero.2 fun e => h (Fin.ext e)
  have h7 : t.val ≤ 7 := by omega
  simp [cueFunctionOf, hpos, h7]

/-- A parameter outside the range of its function, or a function that there is not, is no function. -/
theorem cueFunctionOf_of_range {k b : Nat}
    (h : (1 ≤ k ∧ k ≤ 4 ∧ 3 < b) ∨ (k = 5 ∧ (b = 0 ∨ 7 < b)) ∨ 5 < k) (f : CueFunction) : cueFunctionOf k b ≠ some (some f) := by
  unfold cueFunctionOf
  split
  · omega
  · simp [chanOf_of_three_lt (n := b) (by omega)]
  · simp [chanOf_of_three_lt (n := b) (by omega)]
  · simp [chanOf_of_three_lt (n := b) (by omega)]
  · simp [chanOf_of_three_lt (n := b) (by omega)]
  · rw [dif_neg (by omega)]
    simp
  · simp

/-- Settles O41, by the function code and its parameter. -/
theorem cueConfigReplacesRecord : Obligations.CueConfigReplacesRecord := by
  intro s tag n on low c hready htag polarity p done refused
  have hp : ∀ {k b : Nat}, k < 256 → b < 256 → exec (.cueConfig tag (p k b)) s =
      match cueFunctionOf k b with
      | some (some function) => if function.needsInput && !on then refused .needsInput else done function
      | _ => refused .range := by
    intro k b hk hb
    rw [exec_cueConfig_of_ready hready, Device.takeCueConfig_of_codes htag n hk hb on low]
    cases cueFunctionOf k b with
    | none => rfl
    | some x =>
      cases x with
      | none => rfl
      | some function =>
        dsimp only
        split
        · rfl
        · rw [Device.configureCue_eq]
          rfl
  have hrange : ∀ {k b : Nat}, k < 256 → b < 256 →
      (1 ≤ k ∧ k ≤ 4 ∧ 3 < b) ∨ (k = 5 ∧ (b = 0 ∨ 7 < b)) ∨ 5 < k → exec (.cueConfig tag (p k b)) s = refused .range := by
    intro k b hk hb h
    rw [hp hk hb]
    split
    · exact absurd ‹_› (cueFunctionOf_of_range h _)
    · rfl
  have hc : c.val < 256 := by omega
  obtain ⟨h1, h2, h3, h4⟩ := cueFunctionOf_of_chan c
  refine ⟨fun b hb => ?_, ?_, ?_, ?_, ?_, fun t ht => ?_, fun k b hk1 hk4 hb hb' => ?_, fun b hb hb' => ?_,
    fun k b hk hk' hb => ?_⟩
  · exact hp (by omega) hb
  · rw [hp (by omega) hc, h1]
    cases on <;> rfl
  · rw [hp (by omega) hc, h2]
    cases on <;> rfl
  · rw [hp (by omega) hc, h3]
    rfl
  · rw [hp (by omega) hc, h4]
    rfl
  · rw [hp (by omega) (by omega), cueFunctionOf_of_level ht]
    rfl
  · exact hrange (by omega) hb' (.inl ⟨hk1, hk4, hb⟩)
  · exact hrange (by omega) hb' (.inr (.inl ⟨rfl, hb⟩))
  · exact hrange hk' hb (.inr (.inr hk))

/-! ## CUE_READ and CUE_SET (R180) -/

theorem exec_cueRead_of_ready (h : s.dev.Ready) (tag : Byte) (p : List Byte) :
    exec (.cueRead tag p) s = .next { s with dev := s.dev.takeCueRead tag p } :=
  State.onCommand_of_ready h _ _ _

theorem exec_cueSet_of_ready (h : s.dev.Ready) (tag : Byte) (p : List Byte) :
    exec (.cueSet tag p) s = .next { s with dev := s.dev.takeCueSet tag p } :=
  State.onCommand_of_ready h _ _ _

theorem ite_eq_mul_toNat (b : Bool) (k : Nat) : (if b then k else 0) = k * b.toNat := by
  cases b <;> simp

/-- The mask of the cue lines holds the bit of each line in its place. -/
theorem cueMask_getLsbD (f : CueNo → Bool) (n : CueNo) : (cueMask f).getLsbD n.val = f n := by
  have hbit : ∀ b : Bool, b.toNat ≤ 1 := Bool.toNat_le
  have h0 := hbit (f 0)
  have h1 := hbit (f 1)
  have h2 := hbit (f 2)
  have h3 := hbit (f 3)
  have h4 := hbit (f 4)
  have h5 := hbit (f 5)
  have h6 := hbit (f 6)
  have h7 := hbit (f 7)
  have hvalue : ((f 0).toNat + 2 * (f 1).toNat + 4 * (f 2).toNat + 8 * (f 3).toNat + 16 * (f 4).toNat +
      32 * (f 5).toNat + 64 * (f 6).toNat + 128 * (f 7).toNat) / 2 ^ n.val % 2 = (f n).toNat := by
    have hn : n = 0 ∨ n = 1 ∨ n = 2 ∨ n = 3 ∨ n = 4 ∨ n = 5 ∨ n = 6 ∨ n = 7 := by
      revert n
      decide
    rcases hn with rfl | rfl | rfl | rfl | rfl | rfl | rfl | rfl <;> 
      simp only [Fin.isValue, Fin.coe_ofNat_eq_mod, Nat.reduceMod, Nat.reducePow] <;> omega
  rw [cueMask, BitVec.getLsbD_ofNat, Nat.testBit_eq_decide_div_mod_eq]
  simp only [ite_eq_mul_toNat, one_mul]
  rw [hvalue]
  cases f n <;> simp [n.isLt]

/-- A CUE_SET on a GENERAL line changes its sensed level to the level of its polarity (R178). -/
def CueRecord.edgeOfLevel (r : CueRecord) (outside low : Bool) : Bool :=
  r.inputOn && outside && decide (r.drivesLow ≠ low) && decide (r.polarity = if low then .low else .high)

theorem edgeOfLevel_iff : ∀ (input outside before low : Bool) (polarity : Polarity),
    ((if input then outside && !low else !polarity.level) ≠ (if input then outside && !before else !polarity.level) ∧
      decide ((if input then outside && !low else !polarity.level) = polarity.level) = true) ↔
    CueRecord.edgeOfLevel ⟨.general, input, polarity, before⟩ outside low = true := by
  intro input outside before low polarity
  cases polarity <;> revert input outside before low <;> decide

/-- An active edge of a GENERAL line raises CUE_EDGE with the line (R178). -/
def Device.raiseEdge (edge : Bool) (n : CueNo) (d : Device) : Device :=
  if edge then d.raise .cueEdge (.cueEdge (BitVec.ofNat 8 (2 ^ n.val)) n) else d

/-- A line of a CUE_SET takes its level, and an edge it makes of itself raises CUE_EDGE. -/
theorem Device.setCue_eq {n : CueNo} (hg : (d.cue n).function = .general) (low : Bool) : d.setCue low n =
    ({ d with cues := d.cues.set n { d.cue n with drivesLow := low } } : Device).raiseEdge
      ((d.cue n).edgeOfLevel d.cueOutside[n] low) n := by
  let d' : Device := { d with cues := d.cues.set n { d.cue n with drivesLow := low } }
  have hcue : d'.cue n = { d.cue n with drivesLow := low } := Vector.getElem_set_self _
  have hnew : d'.sensed n = if (d.cue n).inputOn then d.cueOutside[n] && !low else !(d.cue n).polarity.level := by
    simp only [Device.sensed, Device.lineLevel, Device.drives, hcue, hg]
    rfl
  have hold : d.sensed n =
      if (d.cue n).inputOn then d.cueOutside[n] && !(d.cue n).drivesLow else !(d.cue n).polarity.level := by
    simp only [Device.sensed, Device.lineLevel, Device.drives, hg]
  have hact : d'.activeEdge n = d'.raise .cueEdge (.cueEdge (BitVec.ofNat 8 (2 ^ n.val)) n) := by
    simp only [Device.activeEdge, hcue, hg, cueMask_single]
  change d'.edgeSince n (d.sensed n) = _
  rw [Device.edgeSince, Device.cueActive, hnew, hold, hcue, hact]
  exact if_congr (edgeOfLevel_iff ..) rfl rfl

theorem Device.choose_with_cues (cs : Vector CueRecord 8) (d : Device) :
    ({ d with cues := cs } : Device).choose = { d.choose with cues := cs } := by
  unfold Device.choose
  dsimp only
  split
  · split
    · rfl
    · split <;> rfl
  · rfl

/-- What a raise does, it does whatever the cue lines are. -/
theorem Device.raiseEdge_with_cues (edge : Bool) (n : CueNo) (cs : Vector CueRecord 8) (d : Device) :
    ({ d with cues := cs } : Device).raiseEdge edge n = { d.raiseEdge edge n with cues := cs } := by
  cases edge
  · rfl
  · exact Device.choose_with_cues cs { d with notices := d.notices.set Source.cueEdge.index ((d.notice .cueEdge).raise
      (.cueEdge (BitVec.ofNat 8 (2 ^ n.val)) n)) }

theorem works_raiseEdge (c : Chan) (edge : Bool) (n : CueNo) (d : Device) : Works c d (d.raiseEdge edge n) := by
  cases edge
  · exact .refl c d
  · exact .raise c _ _ d

/-- The records of the lines of a CUE_SET after it. -/
def levelledCues (level : Byte) (lines : List CueNo) (cs : Vector CueRecord 8) : Vector CueRecord 8 :=
  lines.foldl (fun cs (n : CueNo) => cs.set n { cs[n] with drivesLow := level.getLsbD n.val }) cs

theorem levelledCues_getElem (level : Byte) (lines : List CueNo) (cs : Vector CueRecord 8) (n : CueNo) :
    (levelledCues level lines cs)[n] =
      if n ∈ lines then { cs[n] with drivesLow := level.getLsbD n.val } else cs[n] := by
  induction lines generalizing cs with
  | nil => rfl
  | cons m lines ih =>
    rw [levelledCues, List.foldl_cons]
    refine (ih _).trans ?_
    by_cases hn : n = m
    · subst hn
      simp
    · have hne : m.val ≠ n.val := fun e => hn (Fin.ext e.symm)
      have hset : (cs.set m { cs[m] with drivesLow := level.getLsbD m.val })[n] = cs[n] :=
        Vector.getElem_set_ne _ _ hne
      rw [hset]
      simp [hn]

/-- CUE_SET levels its lines, which take nothing from each other, and raises their edges in order. -/
theorem Device.foldl_setCue_eq (level : Byte) (r : CueNo → CueRecord) (outside : CueNo → Bool) (lines : List CueNo)
    (hl : lines.Nodup) (d : Device) (cs : Vector CueRecord 8) (hr : ∀ n ∈ lines, cs[n] = r n)
    (hg : ∀ n ∈ lines, (r n).function = .general) (ho : ∀ n : CueNo, d.cueOutside[n] = outside n) :
    lines.foldl (fun (d : Device) n => d.setCue (level.getLsbD n.val) n) { d with cues := cs } =
      { lines.foldl (fun (d : Device) n => d.raiseEdge ((r n).edgeOfLevel (outside n) (level.getLsbD n.val)) n) d with
        cues := levelledCues level lines cs } := by
  induction lines generalizing d cs with
  | nil => rfl
  | cons n lines ih =>
    obtain ⟨hn, hl⟩ := List.nodup_cons.1 hl
    obtain ⟨hrn, hr⟩ := List.forall_mem_cons.1 hr
    obtain ⟨hgn, hg⟩ := List.forall_mem_cons.1 hg
    have hset : ({ d with cues := cs } : Device).setCue (level.getLsbD n.val) n =
        { d.raiseEdge ((r n).edgeOfLevel (outside n) (level.getLsbD n.val)) n with
          cues := cs.set n { cs[n] with drivesLow := level.getLsbD n.val } } := by
      rw [Device.setCue_eq (d := { d with cues := cs }) ((congrArg CueRecord.function hrn).trans hgn), ← hrn, ← ho n,
        ← Device.raiseEdge_with_cues]
      rfl
    have hcues : ∀ m ∈ lines, (cs.set n { cs[n] with drivesLow := level.getLsbD n.val })[m] = r m := fun m hm => by
      have hne : n.val ≠ m.val := fun e => hn (Fin.ext e ▸ hm)
      rw [Fin.getElem_fin, Vector.getElem_set_ne _ _ hne]
      exact hr m hm
    have hout : (d.raiseEdge ((r n).edgeOfLevel (outside n) (level.getLsbD n.val)) n).cueOutside = d.cueOutside :=
      congrArg Shell.cueOutside (works_raiseEdge 0 _ n d).shell
    rw [List.foldl_cons, hset, ih hl _ _ hcues hg (fun m => by rw [hout]; exact ho m)]
    rfl

theorem Device.foldl_raiseEdge_with_cues (edge : CueNo → Bool) (lines : List CueNo) (cs : Vector CueRecord 8) (d : Device) :
    { lines.foldl (fun (d : Device) n => d.raiseEdge (edge n) n) d with cues := cs } =
      lines.foldl (fun (d : Device) n => d.raiseEdge (edge n) n) { d with cues := cs } :=
  (List.foldl_hom (fun d : Device => { d with cues := cs }) fun d n => Device.raiseEdge_with_cues (edge n) n cs d).symm

theorem Device.foldl_raiseEdge_parts (edge : CueNo → Bool) (lines : List CueNo) (d : Device) :
    (lines.foldl (fun (d : Device) n => d.raiseEdge (edge n) n) d).ops = d.ops ∧
    (lines.foldl (fun (d : Device) n => d.raiseEdge (edge n) n) d).dropLog = d.dropLog ∧
    (lines.foldl (fun (d : Device) n => d.raiseEdge (edge n) n) d).overflow = d.overflow := by
  induction lines generalizing d with
  | nil => exact ⟨rfl, rfl, rfl⟩
  | cons n lines ih =>
    obtain ⟨hops, hlog, hover⟩ := ih (d.raiseEdge (edge n) n)
    rw [List.foldl_cons, hops, hlog, hover, Device.raiseEdge]
    split <;> simp

/-- The edges of the lines a CUE_SET applies to are those of all lines, of which the others make none. -/
theorem Device.foldl_raiseEdge_filter (edge applied : CueNo → Bool) (d : Device) :
    ((List.finRange 8).filter applied).foldl (fun (d : Device) n => d.raiseEdge (edge n) n) d =
      ([0, 1, 2, 3, 4, 5, 6, 7] : List CueNo).foldl (fun (d : Device) n => d.raiseEdge (applied n && edge n) n) d := by
  rw [List.foldl_filter, show List.finRange 8 = [0, 1, 2, 3, 4, 5, 6, 7] by decide]
  congr 1
  funext d n
  cases applied n <;> rfl

/-- Settles O42: CUE_READ by the masks, CUE_SET line by line. -/
theorem cueReadAndSet : Obligations.CueReadAndSet := by
  intro s tag hready htag
  refine ⟨⟨cueMask s.dev.sensed, cueMask s.dev.drives, ?_, fun n => ⟨cueMask_getLsbD _ n, cueMask_getLsbD _ n⟩⟩,
    fun mask level => ?_⟩
  · rw [exec_cueRead_of_ready hready, Device.takeCueRead, if_neg (by simp), Device.unlessTagged_of_free htag]
    rfl
  · let applied := fun n : CueNo => mask.getLsbD n.val && decide ((s.dev.cue n).function = .general)
    let lines := (List.finRange 8).filter applied
    let cs := levelledCues level lines s.dev.cues
    let mask' := cueMask fun n => lines.contains n
    have happlied : ∀ n : CueNo, mask'.getLsbD n.val = applied n := fun n => by
      rw [cueMask_getLsbD, Bool.eq_iff_iff, List.contains_iff_mem]
      simp [lines]
    let edge := fun n : CueNo => mask'.getLsbD n.val && (s.dev.cue n).inputOn && s.dev.cueOutside[n] &&
      decide ((s.dev.cue n).drivesLow ≠ level.getLsbD n.val) &&
      decide ((s.dev.cue n).polarity = if level.getLsbD n.val then .low else .high)
    let all : List CueNo := [0, 1, 2, 3, 4, 5, 6, 7]
    let raised := all.foldl (fun (v : Device) n => v.raiseEdge (edge n) n) { s.dev with cues := cs }
    have hedge : ∀ n, (applied n && (s.dev.cue n).edgeOfLevel s.dev.cueOutside[n] (level.getLsbD n.val)) = edge n := by
      intro n
      simp only [edge, happlied n, CueRecord.edgeOfLevel, Bool.and_assoc]
    have hraised : lines.foldl (fun (d : Device) n => d.setCue (level.getLsbD n.val) n) s.dev = raised := by
      refine (Device.foldl_setCue_eq level s.dev.cue (fun n => s.dev.cueOutside[n]) lines ((List.nodup_finRange 8).filter _)
        s.dev s.dev.cues (fun _ _ => rfl) (fun n hn => ?_) fun _ => rfl).trans ?_
      · have := (List.mem_filter.1 hn).2
        simp only [applied, Bool.and_eq_true, decide_eq_true_eq] at this
        exact this.2
      · rw [Device.foldl_raiseEdge_with_cues, Device.foldl_raiseEdge_filter]
        simp only [hedge]
        rfl
    obtain ⟨hops, hlog, hover⟩ := Device.foldl_raiseEdge_parts edge all { s.dev with cues := cs }
    refine ⟨{ s with dev := raised.answer tag 0x72 .ok [mask'] }, cs, mask', ?_, rfl, fun c => ?_,
      (Device.answer_ops ..).trans hops, (Device.answer_dropLog ..).trans hlog, (Device.answer_overflow ..).trans hover,
      fun hoff => ?_, fun n => ⟨happlied n, ?_⟩⟩
    · rw [exec_cueSet_of_ready hready, Device.takeCueSet, if_neg (by simp), Device.unlessTagged_of_free htag, ← hraised]
      rfl
    · have hworks : Works c { s.dev with cues := cs } raised := works_foldl c _ (fun v n => works_raiseEdge c _ n v) _ _
      exact Device.keepsRest_of_shell ((Device.answer_shell ..).trans hworks.shell) fun c' hc =>
        (Device.answer_chan ..).trans (hworks.others c' hc)
    · have hnone : ∀ n, edge n = false := fun n => by simp [edge, hoff n]
      have hsame : raised = { s.dev with cues := cs } := by
        simp only [raised, hnone]
        rfl
      rw [hsame]
    · refine (levelledCues_getElem level lines s.dev.cues n).trans (if_congr ?_ rfl rfl)
      rw [happlied n]
      simp [lines]

end Sys2Proof.Machine
end


section
/-! PROOFS. Timecode counts, the lookup and the context reload (R19 to R22, R33, R43, R44). -/

namespace Sys2Proof.Machine

/-! ## Counts (R20 to R22) -/

/-- The parts of a valid timecode within their ranges, and the two labels that drop-frame counting leaves out (R19). -/
structure ValidTimecode (y : System) (tc : Timecode) : Prop where
  hours : tc.hours ≤ 23
  minutes : tc.minutes ≤ 59
  seconds : tc.seconds ≤ 59
  frames : tc.frames ≤ match y with | .s625 => 24 | .s525 => 29
  system : tc.drop = true → y = .s525
  counted : tc.drop = true → tc.seconds = 0 → tc.frames ≤ 1 → tc.minutes % 10 = 0

theorem timecodeValid_iff (y : System) (tc : Timecode) : timecodeValid y tc = true ↔ ValidTimecode y tc := by
  unfold timecodeValid
  constructor
  · intro h
    simp only [Bool.and_eq_true, decide_eq_true_eq, Bool.not_eq_true', Bool.and_eq_false_iff, decide_eq_false_iff_not] at h
    obtain ⟨⟨⟨⟨⟨hh, hm⟩, hs⟩, hf⟩, hy⟩, hd⟩ := h
    refine ⟨hh, hm, hs, hf, fun hdrop => ?_, fun hdrop h0 h1 => ?_⟩
    · cases y <;> simp_all
    · simp_all
  · rintro ⟨hh, hm, hs, hf, hy, hd⟩
    cases hdrop : tc.drop
    · simp only [hh, hm, hs, decide_true, Bool.true_and, Bool.and_true, Bool.false_and, Bool.not_false]
      exact decide_eq_true hf
    · have := hy hdrop
      subst this
      simp only [hh, hm, hs, hf, Bool.true_and, decide_true]
      by_cases h0 : tc.seconds = 0 <;> by_cases h1 : tc.frames ≤ 1 <;> simp_all

/-- R20's frame number of a valid timecode lies within the day. -/
theorem frameNumber_lt {y : System} {tc : Timecode} (h : ValidTimecode y tc) :
    2 * frameNumber (baseOf y tc.drop) tc + 1 < dayFields (baseOf y tc.drop) := by
  obtain ⟨hh, hm, hs, hf, hy, hd⟩ := h
  cases y <;> cases hdrop : tc.drop <;> simp only [baseOf, frameNumber, dayFields] at hf ⊢
  · omega
  · omega
  · omega
  · omega

/-- Drop-frame counts of different minutes lie apart: a minute that is no multiple of ten begins two labels later. -/
theorem dropFrame_lt {m m' s s' f f' : Nat} (hs : s ≤ 59) (hf : f ≤ 29)
    (hd : s' = 0 → f' ≤ 1 → m' % 10 = 0) (h : m < m') :
    1800 * m + 30 * s + f - 2 * (m - m / 10) < 1800 * m' + 30 * s' + f' - 2 * (m' - m' / 10) := by
  have hlow : m' % 10 = 0 ∨ 2 ≤ 30 * s' + f' := by omega
  omega

/-- Two valid timecodes of one base with the same frame number are the same: in drop-frame the minutes of the two lie
apart, since the labels it leaves out are not valid. -/
theorem frameNumber_injective {y : System} {tc tc' : Timecode} (h : ValidTimecode y tc) (h' : ValidTimecode y tc')
    (hdrop : tc.drop = tc'.drop) (he : frameNumber (baseOf y tc.drop) tc = frameNumber (baseOf y tc.drop) tc') :
    tc = tc' := by
  obtain ⟨hh, hm, hs, hf, hy, hd⟩ := h
  obtain ⟨hh', hm', hs', hf', hy', hd'⟩ := h'
  rw [← hdrop] at hd'
  obtain ⟨hours, minutes, seconds, frames, drop⟩ := tc
  obtain ⟨hours', minutes', seconds', frames', drop'⟩ := tc'
  dsimp only at *
  subst hdrop
  have : hours = hours' ∧ minutes = minutes' ∧ seconds = seconds' ∧ frames = frames' := by
    cases y <;> cases drop <;> simp only [baseOf, frameNumber, forall_true_left] at hf hf' he hd hd'
    · omega
    · omega
    · omega
    · have hminutes : 60 * hours + minutes = 60 * hours' + minutes' := by
        rcases lt_trichotomy (60 * hours + minutes) (60 * hours' + minutes') with hlt | heq | hlt
        · have := dropFrame_lt (s' := seconds') (f' := frames') hs hf (by omega) hlt
          omega
        · exact heq
        · have := dropFrame_lt (s' := seconds) (f' := frames) hs' hf' (by omega) hlt
          omega
      omega
  obtain ⟨rfl, rfl, rfl, rfl⟩ := this
  rfl

theorem Count.ne_successor_iff (l n : Count) : n ≠ l.successor ↔ ¬ (n.base = l.base ∧
    n.count = if l.count + 1 = dayFields l.base then 0 else (l.count + 1) % dayFields l.base) := by
  have hnext : (if l.count + 1 = dayFields l.base then 0 else (l.count + 1) % dayFields l.base) =
      (l.count + 1) % dayFields l.base := by
    split
    · rename_i h
      rw [h, Nat.mod_self]
    · rfl
  obtain ⟨b, k⟩ := n
  rw [hnext, Count.successor, ne_eq, Count.mk.injEq]

/-- Settles O56, by the frame number. -/
theorem countsFollowTheDay : Obligations.CountsFollowTheDay := by
  refine ⟨fun y tc i h => ?_, fun y tc tc' i i' h h' hdrop he => ?_, fun last new => ?_⟩
  · have hlt := frameNumber_lt ((timecodeValid_iff y tc).1 h)
    refine ⟨lt_of_le_of_lt ?_ hlt, rfl⟩
    cases i <;> simp [fieldCountOf]
  · simp only [fieldCountOf] at he
    have hi : i = i' := by
      cases i <;> cases i' <;> simp only at he
      · rfl
      · omega
      · omega
      · rfl
    subst hi
    exact ⟨frameNumber_injective ((timecodeValid_iff y tc).1 h) ((timecodeValid_iff y tc').1 h') hdrop (by omega), rfl⟩
  · cases last with
    | none => simp [jumpTest]
    | some l =>
      cases new with
      | none => simp [jumpTest]
      | some n =>
        rw [jumpTest, decide_eq_true_eq, Count.ne_successor_iff]
        simp

/-! ## The lookup (R33) -/

/-- What the search finds is an entry the test picks, with its index. -/
theorem selectWhere_eq_some {test : PlanEntry → Bool} {i : Nat} {entries : List PlanEntry} {x : Selection}
    (h : selectWhere test i entries = some x) :
    ∃ k e, entries[k]? = some e ∧ test e = true ∧ x = e.select (i + k) := by
  induction entries generalizing i with
  | nil => cases h
  | cons e rest ih =>
    rw [selectWhere] at h
    split at h
    · rename_i ht
      cases h
      exact ⟨0, e, rfl, ht, rfl⟩
    · obtain ⟨k, e', he', ht, rfl⟩ := ih h
      exact ⟨k + 1, e', he', ht, by rw [Nat.add_right_comm, Nat.add_assoc]⟩

/-- An entry that the test picks, when it picks no other, is what the search finds. -/
theorem selectWhere_of_unique {test : PlanEntry → Bool} {i k : Nat} {entries : List PlanEntry} {e : PlanEntry}
    (he : entries[k]? = some e) (ht : test e = true)
    (hu : ∀ j e', entries[j]? = some e' → test e' = true → j = k) :
    selectWhere test i entries = some (e.select (i + k)) := by
  cases h : selectWhere test i entries with
  | some x =>
    obtain ⟨j, e', he', ht', rfl⟩ := selectWhere_eq_some h
    obtain rfl := hu j e' he' ht'
    rw [he] at he'
    cases he'
    rfl
  | none =>
    exfalso
    clear hu
    induction entries generalizing i k with
    | nil => simp at he
    | cons a rest ih =>
      rw [selectWhere] at h
      split at h
      · cases h
      · rename_i ha
        cases k with
        | zero =>
          cases he
          exact ha ht
        | succ k => exact ih he h

/-- In an ordered plan a count is covered by one entry at most. -/
theorem Plan.Ordered.covering_unique {p : Plan} (h : p.Ordered) {k i j : Nat} {e f : PlanEntry}
    (he : p.entries[i]? = some e) (hf : p.entries[j]? = some f) (hei : e.startCount ≤ k) (hek : k ≤ e.endCount)
    (hfj : f.startCount ≤ k) (hfk : k ≤ f.endCount) : i = j := by
  obtain ⟨hi, rfl⟩ := List.getElem?_eq_some_iff.1 he
  obtain ⟨hj, rfl⟩ := List.getElem?_eq_some_iff.1 hf
  rcases lt_trichotomy i j with hlt | heq | hlt
  · have := List.pairwise_iff_getElem.1 h.ascending i j hi hj hlt
    omega
  · exact heq
  · have := List.pairwise_iff_getElem.1 h.ascending j i hj hi hlt
    omega

/-- Settles O57. -/
theorem lookupFindsTheCoveringEntry : Obligations.LookupFindsTheCoveringEntry := by
  intro r hr
  refine ⟨rfl, fun k hb => if_neg hb, fun k x hb => ?_, fun k i j e f he hf h1 h2 h3 h4 =>
    hr.covering_unique he hf h1 h2 h3 h4⟩
  rw [Reader.lookup, if_pos hb]
  constructor
  · intro h
    obtain ⟨i, e, he, ht, rfl⟩ := selectWhere_eq_some h
    simp only [Bool.and_eq_true, decide_eq_true_eq] at ht
    rw [Nat.zero_add]
    exact ⟨e, he, ht.1, ht.2, rfl⟩
  · rintro ⟨e, he, h1, h2, hx⟩
    have hu := selectWhere_of_unique
      (test := fun e => decide (e.startCount ≤ k.count) && decide (k.count ≤ e.endCount)) (i := 0) he (by simp [h1, h2])
      fun j e' he' ht' => by
        simp only [Bool.and_eq_true, decide_eq_true_eq] at ht'
        exact hr.covering_unique he' he ht'.1 ht'.2 h1 h2
    rw [hu, Nat.zero_add, PlanEntry.select, ← hx]

/-! ## The reload (R43, R44) -/

theorem clampCrop_fits (y : System) (p : Profile) :
    (clampCrop y p).cropY0 + (clampCrop y p).cropHeight ≤ y.frameLines := by
  simp only [clampCrop]
  omega

section Reload

variable {slots : Vector (Option Profile) 31} {settings : Settings} {id : Nat} {p : Profile}

theorem reloadContext_of_place (h : profileAtPlace slots id = some p) :
    reloadContext slots settings id = ⟨id, id, clampCrop settings.system p⟩ := by
  simp only [reloadContext, h]

theorem reloadContext_of_default (h : profileAtPlace slots id = none)
    (hd : profileAtPlace slots settings.defaultProfile = some p) :
    reloadContext slots settings id = ⟨id, settings.defaultProfile, clampCrop settings.system p⟩ := by
  simp only [reloadContext, h, hd]

theorem reloadContext_of_neither (h : profileAtPlace slots id = none)
    (hd : profileAtPlace slots settings.defaultProfile = none) :
    reloadContext slots settings id = ⟨id, 0, clampCrop settings.system profile0⟩ := by
  simp only [reloadContext, h, hd]

end Reload

/-- Settles O58, by the place the copy comes from. -/
theorem reloadFallsBackAndClamps : Obligations.ReloadFallsBackAndClamps := by
  intro slots settings id _ _ place x lines
  cases h : profileAtPlace slots id with
  | some p =>
    have hx : x = _ := reloadContext_of_place h
    rw [hx]
    exact ⟨p, rfl, .inl ⟨h, rfl⟩, rfl, clampCrop_fits _ _⟩
  | none =>
    cases h' : profileAtPlace slots settings.defaultProfile with
    | some p =>
      have hx : x = _ := reloadContext_of_default h h'
      rw [hx]
      exact ⟨p, rfl, .inr (.inl ⟨h, h', rfl⟩), rfl, clampCrop_fits _ _⟩
    | none =>
      have hx : x = _ := reloadContext_of_neither h h'
      rw [hx]
      exact ⟨profile0, rfl, .inr (.inr ⟨h, h', rfl, rfl⟩), rfl, clampCrop_fits _ _⟩

end Sys2Proof.Machine
end


section
/-! PROOFS. PLAN_STAGE_ADD and PLAN_COMMIT (R27, R28, R31, R32). -/

namespace Sys2Proof.Machine

variable {s : State} {d : Device} {tag : Byte} {c : Chan}

/-! ## The entries of a PLAN_STAGE_ADD payload (R168) -/

/-- The parts of an entry fit its layout, which has one drop-frame flag for both its timecodes. -/
structure EntryFields.FitsBytes (e : EntryFields) : Prop where
  startHours : e.startTc.hours < 256
  startMinutes : e.startTc.minutes < 256
  startSeconds : e.startTc.seconds < 256
  startFrames : e.startTc.frames < 256
  endHours : e.endTc.hours < 256
  endMinutes : e.endTc.minutes < 256
  endSeconds : e.endTc.seconds < 256
  endFrames : e.endTc.frames < 256
  profile : e.profile < 256
  drop : e.endTc.drop = e.startTc.drop

/-- The ten bytes of an entry. -/
def EntryFields.bytes (e : EntryFields) : List Byte := (e.convert .b625).bytes

theorem EntryFields.bytes_length (e : EntryFields) : e.bytes.length = 10 := rfl

theorem flagBits (drop edit : Bool) :
    (BitVec.ofNat 8 ((if drop then 1 else 0) + (if edit then 2 else 0))).getLsbD 0 = drop ∧
    (BitVec.ofNat 8 ((if drop then 1 else 0) + (if edit then 2 else 0))).getLsbD 1 = edit := by
  cases drop <;> cases edit <;> decide

/-- An entry is read back from its bytes, wherever they stand. -/
theorem entryAt_bytes {e : EntryFields} (h : e.FitsBytes) (before after : List Byte) :
    entryAt (before ++ (e.bytes ++ after)) before.length = e := by
  have hbyte : ∀ i, byteAt (before ++ (e.bytes ++ after)) (before.length + i) = byteAt (e.bytes ++ after) i :=
    byteAt_append before _
  have hzero : byteAt (before ++ (e.bytes ++ after)) before.length = byteAt (e.bytes ++ after) 0 :=
    byteAt_append_length before _
  have hflags : (before ++ (e.bytes ++ after)).getD (before.length + 8) 0 =
      BitVec.ofNat 8 ((if e.startTc.drop then 1 else 0) + (if e.edit then 2 else 0)) := by
    rw [List.getD_append_right _ _ _ _ (by omega), Nat.add_sub_cancel_left]
    rfl
  obtain ⟨hdrop, hedit⟩ := flagBits e.startTc.drop e.edit
  simp only [entryAt, timecodeAt, hflags, hdrop, hedit, hzero, hbyte, Nat.add_assoc, Nat.reduceAdd]
  obtain ⟨⟨sh, sm, ss, sf, sd⟩, ⟨eh, em, es, ef, ed⟩, profile, edit⟩ := e
  obtain ⟨h1, h2, h3, h4, h5, h6, h7, h8, h9, h10⟩ := h
  dsimp only at h1 h2 h3 h4 h5 h6 h7 h8 h9 h10
  subst h10
  have e1 := toNat_byte h1
  have e2 := toNat_byte h2
  have e3 := toNat_byte h3
  have e4 := toNat_byte h4
  have e5 := toNat_byte h5
  have e6 := toNat_byte h6
  have e7 := toNat_byte h7
  have e8 := toNat_byte h8
  have e9 := toNat_byte h9
  simp only [EntryFields.bytes, EntryFields.convert, PlanEntry.bytes, timecodeBytes, byte1, List.cons_append,
    List.nil_append, byteAt_cons_succ, byteAt_cons_zero, e1, e2, e3, e4, e5, e6, e7, e8, e9]

theorem length_flatMap_bytes (es : List EntryFields) : (es.flatMap EntryFields.bytes).length = 10 * es.length := by
  induction es with
  | nil => rfl
  | cons e es ih =>
    rw [List.flatMap_cons, List.length_append, ih, EntryFields.bytes_length, List.length_cons]
    omega

/-- The entries of a payload are read back in order. -/
theorem map_entryAt (es : List EntryFields) (h : ∀ e ∈ es, e.FitsBytes) (before : List Byte) :
    (List.range es.length).map (fun k => entryAt (before ++ es.flatMap EntryFields.bytes) (before.length + 10 * k)) = es := by
  induction es generalizing before with
  | nil => rfl
  | cons e es ih =>
    obtain ⟨he, hes⟩ := List.forall_mem_cons.1 h
    rw [List.length_cons, List.range_succ_eq_map, List.map_cons, List.map_map, List.flatMap_cons]
    refine congrArg₂ List.cons (entryAt_bytes he before _) ?_
    refine Eq.trans (List.map_congr_left fun k _ => ?_) (ih hes (before ++ e.bytes))
    rw [List.append_assoc, List.length_append, EntryFields.bytes_length, Function.comp, Nat.add_assoc, Nat.mul_succ,
      Nat.add_comm 10]

theorem entriesOf_bytes (b : Byte) {es : List EntryFields} (h : ∀ e ∈ es, e.FitsBytes) :
    entriesOf (b :: es.flatMap EntryFields.bytes) = es := by
  have hlen : ((b :: es.flatMap EntryFields.bytes).length - 1) / 10 = es.length := by
    rw [List.length_cons, length_flatMap_bytes]
    omega
  rw [entriesOf, hlen]
  exact map_entryAt es h [b]

/-! ## The entries that are appended (R28) -/

/-- What `stageEntries` appends: the entries before the first that fails. -/
theorem stageEntries_prefix (y : System) (q : Plan) (added : Nat) (es : List EntryFields) :
    ∃ n plan st, stageEntries y q added es = (plan, added + n, st) ∧ n ≤ es.length ∧
      (es.take n).foldlM (fun q e => stageEntry y q e) q = .ok plan ∧ (n = es.length → st = .ok) ∧
      (∀ e, es[n]? = some e → stageEntry y plan e = .error st) := by
  induction es generalizing q added with
  | nil => exact ⟨0, q, .ok, rfl, le_refl _, rfl, fun _ => rfl, fun e he => by simp at he⟩
  | cons e es ih =>
    rw [stageEntries]
    cases he : stageEntry y q e with
    | error st =>
      refine ⟨0, q, st, rfl, Nat.zero_le _, rfl, fun h => by simp at h, fun e' he' => ?_⟩
      cases he'
      exact he
    | ok q' =>
      obtain ⟨n, plan, st, hs, hn, hp, hok, herr⟩ := ih q' (added + 1)
      refine ⟨n + 1, plan, st, hs.trans (by rw [Nat.add_assoc, Nat.add_comm 1]), Nat.succ_le_succ hn, ?_,
        fun h => hok (Nat.succ.inj h), herr⟩
      rw [List.take_succ_cons, List.foldlM_cons, he]
      exact hp

theorem exec_planStageAdd_of_ready (h : s.dev.Ready) (tag : Byte) (p : List Byte) :
    exec (.planStageAdd tag p) s = .next { s with dev := s.dev.takePlanStageAdd tag p } :=
  State.onCommand_of_ready h _ _ _

theorem stageAddLength_flatMap (b : Byte) {es : List EntryFields} (h1 : 1 ≤ es.length) (h8 : es.length ≤ 8) :
    stageAddLength (b :: es.flatMap EntryFields.bytes).length = true := by
  simp only [stageAddLength, List.length_cons, length_flatMap_bytes, Bool.and_eq_true, decide_eq_true_eq]
  omega

/-- What PLAN_STAGE_ADD does past its length, by the channel and the entries of its payload. -/
theorem Device.takePlanStageAdd_of_free (hp : d.isPending .commit c = false) {es : List EntryFields} (h1 : 1 ≤ es.length)
    (h8 : es.length ≤ 8) (hes : ∀ e ∈ es, e.FitsBytes) {n : Nat} {plan : Plan} {st : Status}
    (hs : stageEntries (d.chan c).settings.system (d.chan c).reader.staged 0 es = (plan, n, st)) :
    d.takePlanStageAdd tag (BitVec.ofNat 8 c.val :: es.flatMap EntryFields.bytes) =
      if n = 0 then d.answer tag Kind.planStageAdd st (byte1 0)
      else d.unlessTagged tag Kind.planStageAdd fun d =>
        (d.setStaged c plan).answer tag Kind.planStageAdd st (byte1 n) := by
  unfold Device.takePlanStageAdd
  rw [stageAddLength_flatMap _ h1 h8, chanOf_byteAt_chan c _, entriesOf_bytes _ hes]
  simp only [hp, hs]
  rfl

/-- Settles O32, by the entries that `stageEntries` appends. -/
theorem planStageAddAppendsPrefix : Obligations.PlanStageAddAppendsPrefix := by
  intro s tag c es hready h1 h8 hbytes ch p
  have hfits : ∀ e ∈ es, e.FitsBytes := fun e he => by
    obtain ⟨b1, b2, b3, b4, b5, b6, b7, b8, b9, b10⟩ := hbytes e he
    exact ⟨b1, b2, b3, b4, b5, b6, b7, b8, b9, b10⟩
  obtain ⟨n, plan, st, hs, hn, hplan, hok, herr⟩ :=
    stageEntries_prefix (s.dev.chan c).settings.system (s.dev.chan c).reader.staged 0 es
  rw [Nat.zero_add] at hs
  have htake : s.dev.isPending .commit c = false → exec (.planStageAdd tag p) s = .next { s with
      dev := if n = 0 then s.dev.answer tag Kind.planStageAdd st (byte1 0)
        else s.dev.unlessTagged tag Kind.planStageAdd fun d =>
          (d.setStaged c plan).answer tag Kind.planStageAdd st (byte1 n) } := fun hp =>
    (exec_planStageAdd_of_ready hready tag p).trans (congrArg (fun d' => Host.Outcome.next { s with dev := d' })
      (Device.takePlanStageAdd_of_free hp h1 h8 hfits hs))
  refine ⟨fun hp ht => ⟨n, plan, st, ?_, hn, hplan, hok, herr⟩, fun hp ht e he => ⟨fun st' hst => ?_, fun q hq => ?_⟩,
    fun hp => ?_, fun b hb => ?_⟩
  · rw [htake hp]
    by_cases h0 : n = 0
    · subst h0
      cases hplan
      rw [if_pos rfl, Device.setChan_chan_self]
      rfl
    · rw [if_neg h0, Device.unlessTagged_of_free ht]
      rfl
  · have h0 : n = 0 ∧ st = st' := by
      cases es with
      | nil => cases he
      | cons e' es =>
        cases he
        rw [stageEntries, hst] at hs
        obtain ⟨-, h0, hst'⟩ := Prod.mk.inj hs |>.imp id Prod.mk.inj
        exact ⟨h0.symm, hst'.symm⟩
    rw [htake hp, if_pos h0.1, h0.2]
    rfl
  · have h0 : n ≠ 0 := by
      rintro rfl
      cases es with
      | nil => cases he
      | cons e' es =>
        cases he
        cases hplan
        have := herr e rfl
        rw [hq] at this
        cases this
    rw [htake hp, if_neg h0, Device.unlessTagged_of_used ht]
    rfl
  · have hlen : stageAddLength p.length = true := stageAddLength_flatMap _ h1 h8
    rw [exec_planStageAdd_of_ready hready, Device.takePlanStageAdd, hlen, chanOf_byteAt_chan c _]
    simp only [hp]
    rfl
  · have hlen : stageAddLength (b :: p.tail).length = true := stageAddLength_flatMap b h1 h8
    have hc : chanOf (byteAt (b :: p.tail) 0) = none := chanOf_of_three_lt hb
    rw [exec_planStageAdd_of_ready hready, Device.takePlanStageAdd, hlen, hc]
    rfl

/-! ## A long command's operation at the end of the table (R152) -/

theorem Device.tag_ne_of_free (h : d.tagInUse tag = false) : ∀ o ∈ d.ops, o.tag ≠ tag := fun o ho e => by
  have := List.any_eq_false.1 h o ho
  exact this (decide_eq_true e)

/-- The operation that a long command has just put at the end of the table ends there when all its flags are set. -/
theorem Device.settleOp_at_end {o : Operation} {ops : List Operation} (ho : d.ops = ops ++ [o])
    (h : ∀ x ∈ ops, x.tag ≠ o.tag) (c : Chan) (flag : DoneFlag) (performed : Option FlushDone) (result : OpResult) :
    d.settleOp o.tag c flag performed result =
      if (o.settle c flag performed result).complete then
        ({ d with ops := ops } : Device).enterReply (o.settle c flag performed result).reply
      else { d with ops := ops ++ [o.settle c flag performed result] } := by
  have := Device.settleOp_of_distinct (c := c) (flag := flag) (performed := performed) (result := result) ho
    (by rw [List.append_nil]; exact h)
  rw [this, List.append_nil]

/-- An operation of one target that is done is over. -/
theorem Device.settleOp_single {kind : OpKind} {ops : List Operation}
    (ho : d.ops = ops ++ [⟨tag, kind, [⟨c, .clear, none⟩], .none⟩]) (h : ∀ x ∈ ops, x.tag ≠ tag)
    (performed : Option FlushDone) (result : OpResult) :
    d.settleOp tag c .done performed result =
      ({ d with ops := ops } : Device).enterReply (Operation.reply ⟨tag, kind, [⟨c, .done, performed⟩], result⟩) := by
  have hsettle : (⟨tag, kind, [⟨c, .clear, none⟩], .none⟩ : Operation).settle c .done performed result =
      ⟨tag, kind, [⟨c, .done, performed⟩], result⟩ := by
    simp [Operation.settle, Target.settle, Target.pendingOn]
    exact fun h => h.symm
  have := Device.settleOp_at_end ho h c .done performed result
  rw [hsettle] at this
  exact this.trans (if_pos rfl)

theorem Device.unlessFull_of_full (ht : d.tagInUse tag = false) (hs : 4 ≤ d.ops.length) (kind : Byte)
    (act : Device → Device) : d.unlessFull tag kind act = d.answer tag kind .busy [] := by
  have hfull : d.slotsFull = true := decide_eq_true hs
  rw [Device.unlessFull, ht, hfull]
  rfl

/-! ## PLAN_COMMIT (R31, R32) -/

theorem exec_planCommit_of_ready (h : s.dev.Ready) (tag : Byte) (p : List Byte) :
    exec (.planCommit tag p) s = .next { s with dev := s.dev.takePlanCommit tag p } :=
  State.onCommand_of_ready h _ _ _

/-- What PLAN_COMMIT does past its checks. -/
theorem Device.takePlanCommit_of_free (hp : d.isPending .commit c = false) (ht : d.tagInUse tag = false)
    (hs : d.ops.length < 4) : d.takePlanCommit tag [BitVec.ofNat 8 c.val] =
      if (d.chan c).state = .running then d.takeSlot tag .commit [c] else (d.takeSlot tag .commit [c]).swapPlan c tag := by
  rw [Device.takePlanCommit, Device.withChannel_of_chan, hp, if_neg Bool.false_ne_true, Device.unlessFull_of_free ht hs]
  rfl

/-- A commit that is taken off a running channel swaps and ends at once. -/
theorem Device.swapPlan_taken (ht : d.tagInUse tag = false) : (d.takeSlot tag .commit [c]).swapPlan c tag =
    (d.setChan c { d.chan c with reader := (d.chan c).reader.swap }).answer tag Kind.planCommit .ok
      (byte1 (d.chan c).reader.staged.entries.length) := by
  unfold Device.swapPlan
  rw [Device.settleOp_single (kind := .commit) (ops := d.ops) rfl (Device.tag_ne_of_free ht)]
  rfl

/-- The selection that a swap keeps (R32). -/
def Reader.swapSelection (r : Reader) : Option Selection :=
  r.selection.bind fun x => selectWhere (fun e => decide (e.startCount = x.startCount)) 0 r.staged.entries

theorem selectWhere_eq_none_iff {test : PlanEntry → Bool} {i : Nat} {entries : List PlanEntry} :
    selectWhere test i entries = none ↔ ∀ e ∈ entries, test e = false := by
  induction entries generalizing i with
  | nil => simp [selectWhere]
  | cons e rest ih =>
    rw [selectWhere, List.forall_mem_cons]
    cases h : test e
    · rw [if_neg Bool.false_ne_true, ih]
      simp
    · simp

/-- Settles O33, by the channel's state. -/
theorem planCommitPendsOrSwaps : Obligations.PlanCommitPendsOrSwaps := by
  intro s tag c hready ht ch
  simp only [exec_planCommit_of_ready hready]
  refine ⟨fun hp hs hrun => ?_, fun hp hs hrun => ?_, fun hbusy => ?_, fun b hb => ?_⟩
  · rw [Device.takePlanCommit_of_free hp ht hs, if_pos hrun]
    rfl
  · refine ⟨ch.reader.swapSelection, ?_, rfl, fun hnone => ?_, fun x hx => ⟨fun hno => ?_, fun x' hx' => ?_, fun hex => ?_⟩⟩
    · rw [Device.takePlanCommit_of_free hp ht hs, if_neg hrun, Device.swapPlan_taken ht]
      rfl
    · rw [Reader.swapSelection, hnone]
      rfl
    · rw [Reader.swapSelection, hx]
      exact selectWhere_eq_none_iff.2 fun e he => decide_eq_false (hno e he)
    · rw [Reader.swapSelection, hx] at hx'
      obtain ⟨k, e, he, htest, rfl⟩ := selectWhere_eq_some hx'
      rw [Nat.zero_add]
      exact ⟨e, he, of_decide_eq_true htest, rfl⟩
    · obtain ⟨e, he, heq⟩ := hex
      rw [Reader.swapSelection, hx]
      exact fun hnone => of_decide_eq_false (selectWhere_eq_none_iff.1 hnone e he) heq
  · have hbusy' : s.dev.takePlanCommit tag [BitVec.ofNat 8 c.val] = s.dev.answer tag Kind.planCommit .busy [] := by
      rw [Device.takePlanCommit, Device.withChannel_of_chan]
      split
      · rfl
      · exact Device.unlessFull_of_full ht (hbusy.resolve_left ‹_›) _ _
    rw [hbusy']
    rfl
  · rw [Device.takePlanCommit, Device.withChannel_of_three_lt hb]
    rfl

end Sys2Proof.Machine
end


section
/-! PROOFS. CONTEXT_REFRESH and HISTORY_FLUSH (R47, R48, R101 to R106): the work that is done at once on the targets that
are not RUNNING, with the operation at the end of the table. -/

namespace Sys2Proof.Machine

variable {s : State} {d : Device} {tag : Byte} {c : Chan}

/-! ## Work that does not read the operations table -/

theorem Device.choose_with_ops (ops : List Operation) (d : Device) :
    ({ d with ops := ops } : Device).choose = { d.choose with ops := ops } := by
  unfold Device.choose
  dsimp only
  split
  · split
    · rfl
    · split <;> rfl
  · rfl

theorem Device.raise_with_ops (src : Source) (detail : Detail) (ops : List Operation) (d : Device) :
    ({ d with ops := ops } : Device).raise src detail = { d.raise src detail with ops := ops } :=
  Device.choose_with_ops ops { d with notices := d.notices.set src.index ((d.notice src).raise detail) }

theorem Device.cadenceTold_with_ops (c : Chan) (before after : Tracker) (r : CadenceReason) (ops : List Operation)
    (d : Device) : ({ d with ops := ops } : Device).cadenceTold c before after r =
      { d.cadenceTold c before after r with ops := ops } := by
  unfold Device.cadenceTold
  split
  · rfl
  · exact Device.raise_with_ops ..

/-! ## The operation while its work is done at once (R152, R155) -/

/-- An operation whose work is finished on each channel of a list. -/
def Operation.settleAll (p : Option FlushDone) (cs : List Chan) (o : Operation) : Operation :=
  { o with targets := o.targets.map fun t =>
      if t.chan ∈ cs ∧ t.flag = .clear then { t with flag := .done, performed := p } else t }

theorem Operation.settleAll_nil (p : Option FlushDone) (o : Operation) : o.settleAll p [] = o := by
  simp [Operation.settleAll]

theorem Operation.settleAll_cons (p : Option FlushDone) (c : Chan) (cs : List Chan) (o : Operation) :
    (o.settle c .done p .none).settleAll p cs = o.settleAll p (c :: cs) := by
  obtain ⟨tag, kind, ts, r⟩ := o
  simp only [Operation.settleAll, Operation.settle, if_true, List.map_map]
  refine congrArg (fun ts => Operation.mk tag kind ts r) (List.map_congr_left fun t _ => ?_)
  rw [Function.comp, Target.settle_eq]
  by_cases hf : t.flag = .clear
  · by_cases hc : t.chan = c <;> simp [hf, hc]
  · simp [hf]

theorem Operation.settle_incomplete {o : Operation} {c c' : Chan} (hne : c' ≠ c) (h : o.pendingOn c' = true)
    (p : Option FlushDone) : (o.settle c .done p .none).complete = false := by
  obtain ⟨t, ht, hp⟩ := List.any_eq_true.1 h
  simp only [Target.pendingOn, Bool.and_eq_true, decide_eq_true_eq] at hp
  obtain ⟨hchan, hflag⟩ := hp
  refine List.all_eq_false.2 ⟨t, List.mem_map.2 ⟨t, ht, ?_⟩, by simp [hflag]⟩
  rw [Target.settle_eq, if_neg fun h => hne (hchan.symm.trans h.1)]

theorem Operation.pendingOn_settle_of_ne {o : Operation} {c c' : Chan} (hne : c' ≠ c) (h : o.pendingOn c' = true)
    (p : Option FlushDone) : (o.settle c .done p .none).pendingOn c' = true := by
  obtain ⟨t, ht, hp⟩ := List.any_eq_true.1 h
  refine List.any_eq_true.2 ⟨t, List.mem_map.2 ⟨t, ht, ?_⟩, hp⟩
  simp only [Target.pendingOn, Bool.and_eq_true, decide_eq_true_eq] at hp
  rw [Target.settle_eq, if_neg fun h => hne (hp.1.symm.trans h.1)]

/-- What the end of an operation's work leaves of it, at the end of a table. -/
def Device.ended (ops : List Operation) (o : Operation) (u : Device) : Device :=
  if o.complete then ({ u with ops := ops } : Device).enterReply o.reply else { u with ops := ops ++ [o] }

/-- Work on channels in turn, each finishing the operation there, is the work, and then the operation with that settled. -/
theorem Device.foldl_settleOp {f : Chan → Device → Device}
    (hf : ∀ c ops u, f c { u with ops := ops } = { f c u with ops := ops }) (p : Option FlushDone) {ops : List Operation}
    {cs : List Chan} (hcs : cs.Nodup) {o : Operation} (h : ∀ x ∈ ops, x.tag ≠ o.tag)
    (hp : ∀ c ∈ cs, o.pendingOn c = true) (hne : cs ≠ []) (u : Device) :
    cs.foldl (fun u c => (f c u).settleOp o.tag c .done p .none) { u with ops := ops ++ [o] } =
      (cs.foldl (fun u c => f c u) u).ended ops (o.settleAll p cs) := by
  induction cs generalizing o u with
  | nil => exact absurd rfl hne
  | cons c cs ih =>
    obtain ⟨hc, hcs⟩ := List.nodup_cons.1 hcs
    obtain ⟨-, hrest⟩ := List.forall_mem_cons.1 hp
    have hstep : (f c { u with ops := ops ++ [o] }).settleOp o.tag c .done p .none =
        (f c u).ended ops (o.settle c .done p .none) := by
      rw [hf]
      exact Device.settleOp_at_end (d := { f c u with ops := ops ++ [o] }) rfl h c .done p .none
    rw [List.foldl_cons, List.foldl_cons, hstep]
    cases cs with
    | nil => rw [← Operation.settleAll_cons, Operation.settleAll_nil, List.foldl_nil, List.foldl_nil]
    | cons c' cs =>
      have hne : c' ≠ c := fun e => hc (e ▸ List.mem_cons_self)
      rw [Device.ended, Operation.settle_incomplete hne (hrest c' List.mem_cons_self), if_neg Bool.false_ne_true,
        ← Operation.settleAll_cons]
      exact ih hcs (o := o.settle c .done p .none) h
        (fun k hk => Operation.pendingOn_settle_of_ne (fun e : k = c => hc (e ▸ hk)) (hrest k hk) p) (List.cons_ne_nil _ _) (f c u)

/-- Work on several channels, each reading its own channel and changing no other, is the same when what each reads is
taken from the device before. -/
theorem Device.foldl_of_before {f : Chan → Device → Device} {g : Chan → Device → Device} {d : Device} {P : Device → Prop}
    (hP : ∀ c u, P u → P (g c u)) (hfg : ∀ c u, P u → u.chan c = d.chan c → f c u = g c u)
    (hg : ∀ c u c', c' ≠ c → (g c u).chan c' = u.chan c') {cs : List Chan} (hcs : cs.Nodup) (u : Device) (hu : P u)
    (h : ∀ c ∈ cs, u.chan c = d.chan c) : cs.foldl (fun u c => f c u) u = cs.foldl (fun u c => g c u) u := by
  induction cs generalizing u with
  | nil => rfl
  | cons c cs ih =>
    obtain ⟨hc, hcs⟩ := List.nodup_cons.1 hcs
    obtain ⟨h0, hrest⟩ := List.forall_mem_cons.1 h
    rw [List.foldl_cons, List.foldl_cons, hfg c u hu h0]
    exact ih hcs _ (hP c u hu) fun k hk => (hg c u k fun e => hc (e ▸ hk)).trans (hrest k hk)

/-- The targets of a long command that is taken, by whether their channel runs. -/
theorem settleAll_targets (d : Device) (cs : List Chan) (tag : Byte) (kind : OpKind) (p : Option FlushDone) :
    (⟨tag, kind, cs.map fun c => ⟨c, .clear, none⟩, .none⟩ : Operation).settleAll p (d.atOnce cs) =
      ⟨tag, kind, cs.map fun c => if (d.chan c).state = .running then ⟨c, .clear, none⟩ else ⟨c, .done, p⟩, .none⟩ := by
  simp only [Operation.settleAll, List.map_map, Device.atOnce]
  refine congrArg (fun ts => Operation.mk tag kind ts .none) (List.map_congr_left fun c hc => ?_)
  by_cases h : (d.chan c).state = .running <;> simp [h, hc]

theorem targets_complete_iff (d : Device) (cs : List Chan) (tag : Byte) (kind : OpKind) (p : Option FlushDone) :
    (⟨tag, kind, cs.map fun c => if (d.chan c).state = .running then ⟨c, .clear, none⟩ else ⟨c, .done, p⟩, .none⟩ :
      Operation).complete = true ↔ ∀ c ∈ cs, (d.chan c).state ≠ .running := by
  rw [Operation.complete_iff]
  simp only [List.forall_mem_map]
  refine forall₂_congr fun c _ => ?_
  by_cases h : (d.chan c).state = .running <;> simp [h]

/-! ## CONTEXT_REFRESH (R47, R48) -/

theorem exec_contextRefresh_of_ready (h : s.dev.Ready) (tag : Byte) (p : List Byte) :
    exec (.contextRefresh tag p) s = .next { s with dev := s.dev.takeContextRefresh tag p } :=
  State.onCommand_of_ready h _ _ _

/-- A channel with its context reloaded from a profile table (R48, R82). -/
def Channel.refreshed (slots : Vector (Option Profile) 31) (ch : Channel) : Channel :=
  let context := ch.context.map fun x => reloadContext slots ch.settings x.requested
  { ch with context := context, tracker := ch.tracker.told ch.context context none }

/-- The refresh of a channel as it was, with CADENCE where the tracker's state changes name. -/
def Device.refreshFrom (d : Device) (c : Chan) (u : Device) : Device :=
  (u.setChan c ((d.chan c).refreshed d.profiles)).cadenceTold c (d.chan c).tracker
    ((d.chan c).refreshed d.profiles).tracker .forced

theorem Device.refreshNow_eq_settleOp (c : Chan) (tag : Byte) (d : Device) :
    d.refreshNow c tag = (d.refreshFrom c d).settleOp tag c .done none .none := Device.refreshNow_eq c tag d

theorem Device.refreshFrom_congr {d d' : Device} (hp : d'.profiles = d.profiles) {c : Chan} (hc : d'.chan c = d.chan c)
    (u : Device) : d'.refreshFrom c u = d.refreshFrom c u := by
  rw [Device.refreshFrom, Device.refreshFrom, hp, hc]

theorem Device.refreshFrom_chan_ne (d u : Device) {c c' : Chan} (hc : c' ≠ c) :
    (d.refreshFrom c u).chan c' = u.chan c' :=
  (Device.cadenceTold_chan ..).trans (Device.chan_setChan_ne u _ hc)

/-- What a CONTEXT_REFRESH of a scope leaves that is taken on its targets. -/
theorem Device.takeContextRefresh_of_free {p : List Byte} (hlen : p.length = 2) {ask : RefreshAsk}
    (hask : refreshAskOf (byteAt p 0) (byteAt p 1) = some ask) {scope : RefreshScope} {cs : List Chan}
    (htargets : d.refreshTargets ask = (scope, cs)) (hcs : cs.Nodup) (ht : d.tagInUse tag = false)
    (hs : d.ops.length < 4) (hp : ∀ c ∈ cs, d.isPending .refresh c = false) :
    d.takeContextRefresh tag p = ((d.atOnce cs).foldl (fun u c => d.refreshFrom c u) d).ended d.ops
      ⟨tag, .refresh scope,
        cs.map fun c => if (d.chan c).state = .running then ⟨c, .clear, none⟩ else ⟨c, .done, none⟩, .none⟩ := by
  let o : Operation := ⟨tag, .refresh scope, cs.map fun c => ⟨c, .clear, none⟩, .none⟩
  have hpending : (cs.any fun c => d.isPending .refresh c) = false := List.any_eq_false.2 fun c hc => by simp [hp c hc]
  have hops : ∀ c ops (u : Device), ({ u with ops := ops } : Device).refreshFrom c { u with ops := ops } =
      { u.refreshFrom c u with ops := ops } := fun c ops u =>
    Device.cadenceTold_with_ops c (u.chan c).tracker ((u.chan c).refreshed u.profiles).tracker .forced ops
      (u.setChan c ((u.chan c).refreshed u.profiles))
  have hnodup : (d.atOnce cs).Nodup := hcs.filter _
  have hsub : ∀ c ∈ d.atOnce cs, o.pendingOn c = true := fun c hc => by
    have := List.mem_of_mem_filter hc
    simp [o, Operation.pendingOn, Target.pendingOn, this]
  have hbefore : (d.atOnce cs).foldl (fun u c => u.refreshFrom c u) d = (d.atOnce cs).foldl (fun u c => d.refreshFrom c u) d :=
    Device.foldl_of_before (g := fun c u => d.refreshFrom c u) (P := fun u => u.profiles = d.profiles)
      (fun c u hu => (Device.cadenceTold_profiles ..).trans hu)
      (fun c u hu hc => Device.refreshFrom_congr hu hc u)
      (fun c u c' hc => Device.refreshFrom_chan_ne d u hc) hnodup d rfl fun _ _ => rfl
  have hfree := Device.tag_ne_of_free ht
  have hwork : ((d.atOnce cs).foldl (fun u c => u.refreshNow c tag) (d.takeSlot tag (.refresh scope) cs)).completeOp tag =
      ((d.atOnce cs).foldl (fun u c => d.refreshFrom c u) d).ended d.ops (o.settleAll none (d.atOnce cs)) := by
    simp only [Device.refreshNow_eq_settleOp]
    rw [← hbefore]
    by_cases hnil : d.atOnce cs = []
    · rw [hnil, Operation.settleAll_nil]
      have := Device.completeOp_of_distinct (d := d.takeSlot tag (.refresh scope) cs) (before := d.ops) (after := [])
        (o' := o) rfl (by rw [List.append_nil]; exact hfree)
      rw [List.append_nil] at this
      exact this
    · have hfold := Device.foldl_settleOp (f := fun c u => u.refreshFrom c u) hops none hnodup (o := o) hfree hsub hnil d
      refine (congrArg (Device.completeOp tag) hfold).trans ?_
      unfold Device.ended
      split
      · obtain e | ⟨x, hx, htag, -⟩ := Device.completeOp_cases tag (({ (d.atOnce cs).foldl (fun u c => u.refreshFrom c u) d with
            ops := d.ops } : Device).enterReply (o.settleAll none (d.atOnce cs)).reply)
        · exact e
        · rw [Device.enterReply_ops] at hx
          exact absurd htag (hfree x hx)
      · rename_i hinc
        have := Device.completeOp_of_distinct (d := { (d.atOnce cs).foldl (fun u c => u.refreshFrom c u) d with
            ops := d.ops ++ [o.settleAll none (d.atOnce cs)] }) (before := d.ops) (after := [])
          (o' := o.settleAll none (d.atOnce cs)) rfl (by rw [List.append_nil]; exact hfree)
        exact this.trans (if_neg hinc)
  rw [Device.takeContextRefresh, if_neg (not_not.2 hlen), hask]
  dsimp only
  rw [Device.unlessFull_of_free ht hs, htargets]
  dsimp only
  rw [hpending, if_neg Bool.false_ne_true, ← settleAll_targets]
  exact hwork

theorem Device.takeContextRefresh_of_busy {p : List Byte} (hlen : p.length = 2) {ask : RefreshAsk}
    (hask : refreshAskOf (byteAt p 0) (byteAt p 1) = some ask) {scope : RefreshScope} {cs : List Chan}
    (htargets : d.refreshTargets ask = (scope, cs)) (ht : d.tagInUse tag = false)
    (h : (∃ c ∈ cs, d.isPending .refresh c = true) ∨ 4 ≤ d.ops.length) :
    d.takeContextRefresh tag p = d.answer tag Kind.contextRefresh .busy [] := by
  rw [Device.takeContextRefresh, if_neg (not_not.2 hlen), hask]
  dsimp only
  by_cases hs : d.ops.length < 4
  · rw [Device.unlessFull_of_free ht hs, htargets]
    exact if_pos (List.any_eq_true.2 (h.resolve_right (by omega)))
  · exact Device.unlessFull_of_full ht (by omega) _ _

theorem Device.takeContextRefresh_of_range {p : List Byte} (hlen : p.length = 2)
    (hask : refreshAskOf (byteAt p 0) (byteAt p 1) = none) :
    d.takeContextRefresh tag p = d.answer tag Kind.contextRefresh .range [] := by
  rw [Device.takeContextRefresh, if_neg (not_not.2 hlen), hask]

/-- The reply of a refresh that is done on all its targets (R48). -/
theorem reply_of_refresh (tag : Byte) (scope : RefreshScope) (cs : List Chan) :
    (⟨tag, .refresh scope, cs.map fun c => ⟨c, .done, none⟩, .none⟩ : Operation).reply =
      ⟨tag, .ok, Kind.contextRefresh, [scope.code, chanSet cs]⟩ := by
  have hstatus : (⟨tag, .refresh scope, cs.map fun c => ⟨c, .done, none⟩, .none⟩ : Operation).status = .ok := by
    rw [Operation.status_eq, if_neg (by simp), if_neg (by simp [OpResult.failed])]
  have hdone : (⟨tag, .refresh scope, cs.map fun c => ⟨c, .done, none⟩, .none⟩ : Operation).doneChans = cs := by
    have hfilter : ((cs.map fun c => (⟨c, .done, none⟩ : Target)).filter fun t => decide (t.flag = .done)) =
        cs.map fun c => ⟨c, .done, none⟩ := List.filter_eq_self.2 fun t ht => by
      obtain ⟨c, -, rfl⟩ := List.mem_map.1 ht
      rfl
    simp only [Operation.doneChans, hfilter, List.map_map]
    exact List.map_id cs
  rw [Operation.reply, hstatus, Operation.results, hdone]
  rfl

/-- A refresh with no target that runs completes when taken. -/
theorem Device.ended_refresh_of_idle {d u : Device} {cs : List Chan} (h : ∀ c ∈ cs, (d.chan c).state ≠ .running)
    (hu : u.ops = d.ops) (scope : RefreshScope) :
    u.ended d.ops ⟨tag, .refresh scope,
        cs.map fun c => if (d.chan c).state = .running then ⟨c, .clear, none⟩ else ⟨c, .done, none⟩, .none⟩ =
      u.answer tag Kind.contextRefresh .ok [scope.code, chanSet cs] := by
  have hts : (cs.map fun c => if (d.chan c).state = .running then (⟨c, .clear, none⟩ : Target) else ⟨c, .done, none⟩) =
      cs.map fun c => ⟨c, .done, none⟩ := List.map_congr_left fun c hc => if_neg (h c hc)
  rw [Device.ended, if_pos ((targets_complete_iff ..).2 h), hts, reply_of_refresh, ← hu]
  rfl

/-- A refresh with a target that runs stays in the table. -/
theorem Device.ended_of_running {d u : Device} {cs : List Chan} (h : ∃ c ∈ cs, (d.chan c).state = .running) (kind : OpKind)
    (p : Option FlushDone) : u.ended d.ops ⟨tag, kind,
        cs.map fun c => if (d.chan c).state = .running then ⟨c, .clear, none⟩ else ⟨c, .done, p⟩, .none⟩ =
      { u with ops := d.ops ++ [⟨tag, kind,
        cs.map fun c => if (d.chan c).state = .running then ⟨c, .clear, none⟩ else ⟨c, .done, p⟩, .none⟩] } := by
  obtain ⟨c, hc, hr⟩ := h
  exact if_neg fun hcomplete => (targets_complete_iff ..).1 hcomplete c hc hr

/-- Work on the targets that are not RUNNING passes over the others. -/
theorem Device.foldl_atOnce (f : Chan → Device → Device) (d : Device) (cs : List Chan) (u : Device) :
    (d.atOnce cs).foldl (fun u c => f c u) u =
      cs.foldl (fun u c => if (d.chan c).state = .running then u else f c u) u := by
  rw [Device.atOnce, List.foldl_filter]
  congr 1
  funext u c
  by_cases h : (d.chan c).state = .running <;> simp [h]

theorem Device.atOnce_of_running {c : Chan} (h : (d.chan c).state = .running) : d.atOnce [c] = [] :=
  List.filter_cons_of_neg (by simpa using h)

theorem Device.atOnce_of_idle {c : Chan} (h : (d.chan c).state ≠ .running) : d.atOnce [c] = [c] :=
  List.filter_cons_of_pos (by simpa using h)

theorem Device.foldl_refreshFrom_ops (d : Device) (cs : List Chan) (u : Device) :
    (cs.foldl (fun u c => d.refreshFrom c u) u).ops = u.ops := by
  induction cs generalizing u with
  | nil => rfl
  | cons c cs ih => exact (ih _).trans ((Device.cadenceTold_ops ..).trans (Device.setChan_ops ..))

theorem chanSet_single (c : Chan) : chanSet [c] = BitVec.ofNat 8 (2 ^ c.val) := by
  fin_cases c <;> rfl

theorem works_cadenceTold (c : Chan) (before after : Tracker) (r : CadenceReason) (d : Device) :
    Works c d (d.cadenceTold c before after r) := by
  unfold Device.cadenceTold
  split
  · exact .refl c d
  · exact .raise c _ _ d

theorem Device.cadenceTold_dropLog (c : Chan) (before after : Tracker) (r : CadenceReason) (d : Device) :
    (d.cadenceTold c before after r).dropLog = d.dropLog ∧ (d.cadenceTold c before after r).overflow = d.overflow := by
  unfold Device.cadenceTold
  split <;> simp

/-- A reply keeps the rest of a device that work on one channel has changed. -/
theorem Works.keepsRest_answer {c : Chan} {d u : Device} (h : Works c d u) (tag kind : Byte) (st : Status)
    (rs : List Byte) : Device.KeepsRest c d (u.answer tag kind st rs) :=
  Device.keepsRest_of_shell ((Device.answer_shell ..).trans h.shell) fun c' hc =>
    (Device.answer_chan ..).trans (h.others c' hc)

/-- Telling a tracker of a mode reaches its cadence alone. -/
theorem Tracker.told_cadence (t : Tracker) (before after : Option Context) (p : Option ForcedPhase) :
    t.told before after p = { t with cadence := (t.told before after p).cadence } := by
  unfold Tracker.told
  cases before with
  | none => rfl
  | some b =>
    cases after with
    | none => rfl
    | some a =>
      dsimp only
      split <;> rfl

theorem Tracker.told_of_same {before after : Option Context}
    (h : before.map (·.params.mode) = after.map (·.params.mode)) (t : Tracker) (p : Option ForcedPhase) :
    t.told before after p = t := by
  cases before with
  | none => rfl
  | some b =>
    cases after with
    | none => rfl
    | some a => exact if_pos (Option.some.inj h)

/-- Settles O35: a refresh whose one target is the channel. -/
theorem contextRefreshOfChannel : Obligations.ContextRefreshOfChannel := by
  intro s tag c hready ht ch p context
  simp only [exec_contextRefresh_of_ready hready]
  have hask : refreshAskOf (byteAt p 0) (byteAt p 1) = some (.channel c) := by
    have hc : byteAt p 1 = c.val := toNat_byte (by omega)
    rw [hc]
    simp [p, byteAt, refreshAskOf]
  have htargets : s.dev.refreshTargets (.channel c) = (.channel, [c]) := rfl
  have hnodup : [c].Nodup := List.nodup_singleton c
  have htake : s.dev.isPending .refresh c = false → s.dev.ops.length < 4 → s.dev.takeContextRefresh tag p = _ :=
    fun hp hs => Device.takeContextRefresh_of_free (p := p) rfl hask htargets hnodup ht hs (by simpa using hp)
  refine ⟨fun hbusy => ?_, fun hp hs hrun => ?_, fun hp hs hidle => ?_, fun b hb => ?_⟩
  · rw [Device.takeContextRefresh_of_busy (p := p) rfl hask htargets ht (by simpa using hbusy)]
    rfl
  · rw [htake hp hs, Device.ended_of_running ⟨c, List.mem_singleton_self c, hrun⟩, Device.atOnce_of_running hrun,
      List.map_singleton, if_pos hrun]
    rfl
  · let reloaded := s.dev.refreshFrom c s.dev
    have hnone : ∀ k ∈ [c], (s.dev.chan k).state ≠ .running := List.forall_mem_singleton.2 hidle
    have hops : reloaded.ops = s.dev.ops := Device.foldl_refreshFrom_ops s.dev [c] s.dev
    have hworks : Works c s.dev reloaded := (Works.setChan s.dev c _).trans (works_cadenceTold c _ _ _ _)
    have hdone : s.dev.takeContextRefresh tag p =
        reloaded.answer tag Kind.contextRefresh .ok [0, BitVec.ofNat 8 (2 ^ c.val)] := by
      rw [htake hp hs, Device.ended_refresh_of_idle hnone (Device.foldl_refreshFrom_ops ..), Device.atOnce_of_idle hidle,
        chanSet_single]
      rfl
    have htold : ch.tracker.told ch.context context none =
      { ch.tracker with cadence := (ch.tracker.told ch.context context none).cadence } := Tracker.told_cadence ..
    refine ⟨{ s with dev := reloaded.answer tag Kind.contextRefresh .ok [0, BitVec.ofNat 8 (2 ^ c.val)] },
      (ch.tracker.told ch.context context none).cadence, by rw [hdone], ⟨?_, ?_⟩, fun hsame => ?_, fun x x' hx hx' hne => ?_,
      hworks.keepsRest_answer .., (Device.answer_ops ..).trans hops,
      (Device.answer_dropLog ..).trans (Device.cadenceTold_dropLog ..).1⟩
    · rw [← htold]
      rfl
    · rw [← htold]
      exact (Device.answer_chan ..).trans ((Device.cadenceTold_chan ..).trans (Device.chan_setChan_self ..))
    · rw [Tracker.told_of_same hsame]
    · rw [hx, hx', Tracker.told, if_neg hne]
      cases x'.params.mode <;> rfl
  · have hbad : refreshAskOf (byteAt [0, b] 0) (byteAt [0, b] 1) = none := by
      simp [byteAt, refreshAskOf, chanOf_of_three_lt hb]
    rw [Device.takeContextRefresh_of_range rfl hbad]
    rfl

/-- The channels that use a profile (R48). -/
theorem Device.refreshTargets_of_profile (h : ∀ c, d.isPending .commit c = false) (id : Nat) :
    d.refreshTargets (.profile id) = (.profile, ([0, 1, 2, 3] : List Chan).filter fun c => (d.chan c).uses id) :=
  if_neg (by simp [allChans, h])

theorem Device.refreshTargets_of_coarse (h : ∃ c, d.isPending .commit c = true) (id : Nat) :
    d.refreshTargets (.profile id) = (.all, [0, 1, 2, 3]) := by
  obtain ⟨c, hc⟩ := h
  exact if_pos (List.any_eq_true.2 ⟨c, by fin_cases c <;> decide, hc⟩)

/-- Settles O36, by the scope and its targets. -/
theorem refreshTargetsByScope : Obligations.RefreshTargetsByScope := by
  intro s tag id b hready ht users running asks
  have hasks : ∀ {p : List Byte} {ask : RefreshAsk} {scope : RefreshScope} {cs : List Chan}, p.length = 2 →
      refreshAskOf (byteAt p 0) (byteAt p 1) = some ask → s.dev.refreshTargets ask = (scope, cs) → cs.Nodup →
      asks p scope cs := by
    intro p ask scope cs hlen hask htargets hnodup
    let answered := fun dev : Device => exec (.contextRefresh tag p) s = .next { s with dev := dev }
    let done := cs.foldl (fun u c => if running c then u else s.dev.refreshFrom c u) s.dev
    have hanswered : ∀ {dev : Device}, s.dev.takeContextRefresh tag p = dev → answered dev := by
      rintro _ rfl
      exact exec_contextRefresh_of_ready hready tag p
    have hwork : (s.dev.atOnce cs).foldl (fun u c => s.dev.refreshFrom c u) s.dev = done := by
      rw [Device.foldl_atOnce]
      simp only [done, running, decide_eq_true_eq]
    have hts : (cs.map fun c => if (s.dev.chan c).state = .running then (⟨c, .clear, none⟩ : Target) else ⟨c, .done, none⟩) =
        cs.map fun c => ⟨c, if running c then .clear else .done, none⟩ := List.map_congr_left fun c _ => by
      simp only [running, decide_eq_true_eq]
      split <;> rfl
    refine ⟨fun hbusy => hanswered (Device.takeContextRefresh_of_busy hlen hask htargets ht hbusy),
      fun hp hs => ⟨fun hr => hanswered ?_, fun hr => hanswered ?_⟩⟩
    · rw [Device.takeContextRefresh_of_free hlen hask htargets hnodup ht hs hp,
        Device.ended_of_running (by simpa [running] using hr), hwork, hts]
      rfl
    · rw [Device.takeContextRefresh_of_free hlen hask htargets hnodup ht hs hp,
        Device.ended_refresh_of_idle (by simpa [running] using hr) (Device.foldl_refreshFrom_ops ..), hwork]
      rfl
  have hprofile : id ≤ 31 → refreshAskOf (byteAt ([1] ++ byte1 id) 0) (byteAt ([1] ++ byte1 id) 1) = some (.profile id) :=
    fun hid => by
      have hbyte : byteAt ([1] ++ byte1 id) 1 = id := toNat_byte (by omega)
      rw [hbyte]
      exact if_pos hid
  have hall : ([0, 1, 2, 3] : List Chan).Nodup := by decide
  refine ⟨hasks (ask := .all) rfl rfl rfl hall,
    fun hid hcommit => hasks rfl (hprofile hid) (Device.refreshTargets_of_coarse hcommit id) hall,
    fun hid hcommit => hasks rfl (hprofile hid) (Device.refreshTargets_of_profile hcommit id) (hall.filter _),
    fun hb => ?_, fun b' hb' => ?_⟩
  · have hbad : refreshAskOf (byteAt [1, b] 0) (byteAt [1, b] 1) = none := if_neg (by
      rw [not_le]
      exact hb)
    rw [exec_contextRefresh_of_ready hready, Device.takeContextRefresh_of_range rfl hbad]
    rfl
  · have hbad : refreshAskOf (byteAt [b', b] 0) (byteAt [b', b] 1) = none := by
      unfold refreshAskOf
      change 2 < byteAt [b', b] 0 at hb'
      split
      · omega
      · omega
      · omega
      · rfl
    rw [exec_contextRefresh_of_ready hready, Device.takeContextRefresh_of_range rfl hbad]
    rfl

end Sys2Proof.Machine
end


section
/-! PROOFS. HISTORY_FLUSH (R101 to R106). -/

namespace Sys2Proof.Machine

variable {s : State} {d : Device} {tag : Byte} {c : Chan}

theorem exec_historyFlush_of_ready (h : s.dev.Ready) (tag : Byte) (p : List Byte) :
    exec (.historyFlush tag p) s = .next { s with dev := s.dev.takeHistoryFlush tag p } :=
  State.onCommand_of_ready h _ _ _

/-! ## What a flush does at once -/

/-- The flush of a channel as it was, with CADENCE where the tracker's state changes name. -/
def Device.flushFrom (d : Device) (asked : FlushScope) (c : Chan) (u : Device) : Device :=
  (u.setChan c ((d.chan c).flushed asked)).cadenceTold c (d.chan c).tracker ((d.chan c).flushed asked).tracker .flush

theorem Device.flushFrom_ops (d : Device) (asked : FlushScope) (c : Chan) (u : Device) :
    (d.flushFrom asked c u).ops = u.ops :=
  (Device.cadenceTold_ops ..).trans (Device.setChan_ops ..)

theorem Device.foldl_flushFrom_ops (d : Device) (asked : FlushScope) (cs : List Chan) (u : Device) :
    (cs.foldl (fun u c => d.flushFrom asked c u) u).ops = u.ops := by
  induction cs generalizing u with
  | nil => rfl
  | cons c cs ih => exact (ih _).trans (Device.flushFrom_ops ..)

theorem Device.takeHistoryFlush_of_asked {p : List Byte} (hlen : p.length = 10) {asked : FlushScope} {cs : List Chan}
    (hask : d.flushAsk p = some (asked, cs)) (ht : d.tagInUse tag = false) (hs : d.ops.length < 4)
    (hp : ∀ c ∈ cs, d.isPending .flush c = false) :
    d.takeHistoryFlush tag p = (d.atOnce cs).foldl (fun u c => u.flushNow c asked tag) (d.takeSlot tag (.flush asked) cs) := by
  have hpending : (cs.any fun c => d.isPending .flush c) = false := List.any_eq_false.2 fun c hc => by simp [hp c hc]
  rw [Device.takeHistoryFlush, if_neg (not_not.2 hlen), hask]
  dsimp only
  rw [Device.unlessFull_of_free ht hs, hpending, if_neg Bool.false_ne_true]
  rfl

theorem Device.takeHistoryFlush_of_busy {p : List Byte} (hlen : p.length = 10) {asked : FlushScope} {cs : List Chan}
    (hask : d.flushAsk p = some (asked, cs)) (ht : d.tagInUse tag = false)
    (h : (∃ c ∈ cs, d.isPending .flush c = true) ∨ 4 ≤ d.ops.length) :
    d.takeHistoryFlush tag p = d.answer tag Kind.historyFlush .busy [] := by
  rw [Device.takeHistoryFlush, if_neg (not_not.2 hlen), hask]
  dsimp only
  by_cases hs : d.ops.length < 4
  · rw [Device.unlessFull_of_free ht hs]
    exact if_pos (List.any_eq_true.2 (h.resolve_right (by omega)))
  · exact Device.unlessFull_of_full ht (by omega) _ _

theorem Device.takeHistoryFlush_of_range {p : List Byte} (hlen : p.length = 10) (hask : d.flushAsk p = none) :
    d.takeHistoryFlush tag p = d.answer tag Kind.historyFlush .range [] := by
  rw [Device.takeHistoryFlush, if_neg (not_not.2 hlen), hask]

/-- The reply of a flush that is done on its one target (R106). -/
theorem reply_of_flush_single (tag : Byte) (asked : FlushScope) (c : Chan) (p : FlushDone) :
    (⟨tag, .flush asked, [⟨c, .done, some p⟩], .none⟩ : Operation).reply = ⟨tag, .ok, Kind.historyFlush,
      [BitVec.ofNat 8 (2 ^ c.val), BitVec.ofNat 8 (2 ^ c.val)] ++
        ([0, 1, 2, 3] : List Chan).map fun k => if k = c then p.code else 0xFF⟩ := by
  have hbyte : ∀ k, (⟨tag, .flush asked, [⟨c, .done, some p⟩], .none⟩ : Operation).flushByte k =
      if k = c then p.code else 0xFF := fun k => by
    rw [Operation.flushByte, List.find?_singleton]
    by_cases h : k = c
    · subst h
      simp
    · rw [if_neg (by simp [Ne.symm h]), if_neg h]
  have hstatus : (⟨tag, .flush asked, [⟨c, .done, some p⟩], .none⟩ : Operation).status = .ok := rfl
  rw [Operation.reply, hstatus, Operation.results, funext hbyte]
  simp only [Operation.doneChans, List.map_singleton, List.filter_singleton, decide_true, chanSet_single, cond_true]
  rfl

/-- A flush of one channel that does not run is performed and answered (R103, R104). -/
theorem Device.takeHistoryFlush_of_idle {p : List Byte} (hlen : p.length = 10) {asked : FlushScope}
    (hask : d.flushAsk p = some (asked, [c])) (ht : d.tagInUse tag = false) (hs : d.ops.length < 4)
    (hp : d.isPending .flush c = false) (hidle : (d.chan c).state ≠ .running) :
    d.takeHistoryFlush tag p = (d.flushFrom asked c d).answer tag Kind.historyFlush .ok
      ([BitVec.ofNat 8 (2 ^ c.val), BitVec.ofNat 8 (2 ^ c.val)] ++
        ([0, 1, 2, 3] : List Chan).map fun k => if k = c then ((d.chan c).flushScope asked).code else 0xFF) := by
  have hwith : ({ d with ops := d.ops ++ [⟨tag, .flush asked, [⟨c, .clear, none⟩], .none⟩] } : Device).flushFrom asked c
      { d with ops := d.ops ++ [⟨tag, .flush asked, [⟨c, .clear, none⟩], .none⟩] } =
      { d.flushFrom asked c d with ops := d.ops ++ [⟨tag, .flush asked, [⟨c, .clear, none⟩], .none⟩] } :=
    Device.cadenceTold_with_ops c (d.chan c).tracker ((d.chan c).flushed asked).tracker .flush _
      (d.setChan c ((d.chan c).flushed asked))
  have hops := d.flushFrom_ops asked c d
  rw [Device.takeHistoryFlush_of_asked hlen hask ht hs (by simpa using hp), Device.atOnce_of_idle hidle, List.foldl_cons,
    List.foldl_nil, Device.flushNow_eq]
  refine (congrArg (fun u : Device => u.settleOp tag c .done (some ((d.chan c).flushScope asked)) .none) hwith).trans ?_
  rw [Device.settleOp_single (kind := .flush asked) (ops := d.ops) rfl (Device.tag_ne_of_free ht), reply_of_flush_single,
    ← hops]
  rfl

/-- A flush of one channel that runs becomes pending (R103). -/
theorem Device.takeHistoryFlush_of_running {p : List Byte} (hlen : p.length = 10) {asked : FlushScope}
    (hask : d.flushAsk p = some (asked, [c])) (ht : d.tagInUse tag = false) (hs : d.ops.length < 4)
    (hp : d.isPending .flush c = false) (hrun : (d.chan c).state = .running) :
    d.takeHistoryFlush tag p = { d with ops := d.ops ++ [⟨tag, .flush asked, [⟨c, .clear, none⟩], .none⟩] } := by
  rw [Device.takeHistoryFlush_of_asked hlen hask ht hs (by simpa using hp), Device.atOnce_of_running hrun]
  rfl

/-! ## The flush of ALL scope -/

/-- A flush of all channels is performed on each that does not run (R103, R104). -/
theorem Device.takeHistoryFlush_of_all {p : List Byte} (hlen : p.length = 10)
    (hask : d.flushAsk p = some (.all, [0, 1, 2, 3])) (ht : d.tagInUse tag = false) (hs : d.ops.length < 4)
    (hp : ∀ c, d.isPending .flush c = false) :
    let work := (d.atOnce [0, 1, 2, 3]).foldl (fun u c => d.flushFrom .all c u) d
    let o : Operation := ⟨tag, .flush .all, ([0, 1, 2, 3] : List Chan).map fun c =>
      if (d.chan c).state = .running then ⟨c, .clear, none⟩ else ⟨c, .done, some .channel⟩, .none⟩
    d.takeHistoryFlush tag p = work.ended d.ops o := by
  let all : List Chan := [0, 1, 2, 3]
  let o : Operation := ⟨tag, .flush .all, all.map fun c => ⟨c, .clear, none⟩, .none⟩
  have hops : ∀ c ops (u : Device), ({ u with ops := ops } : Device).flushFrom .all c { u with ops := ops } =
      { u.flushFrom .all c u with ops := ops } := fun c ops u =>
    Device.cadenceTold_with_ops c (u.chan c).tracker ((u.chan c).flushed .all).tracker .flush ops
      (u.setChan c ((u.chan c).flushed .all))
  have hnodup : (d.atOnce all).Nodup := List.Nodup.filter _ (by decide)
  have hbefore : (d.atOnce all).foldl (fun u c => u.flushFrom .all c u) d =
      (d.atOnce all).foldl (fun u c => d.flushFrom .all c u) d :=
    Device.foldl_of_before (g := fun c u => d.flushFrom .all c u) (P := fun _ => True) (fun _ _ _ => trivial)
      (fun c u _ hc => by rw [Device.flushFrom, Device.flushFrom, hc])
      (fun c u c' hc => (Device.cadenceTold_chan ..).trans (Device.chan_setChan_ne u _ hc)) hnodup d trivial fun _ _ => rfl
  have hsub : ∀ c ∈ d.atOnce all, o.pendingOn c = true := fun c hc => by
    have := List.mem_of_mem_filter hc
    simp [o, Operation.pendingOn, Target.pendingOn, this]
  intro work o'
  have hfinal : o.settleAll (some .channel) (d.atOnce all) = o' := settleAll_targets d all tag (.flush .all) (some .channel)
  rw [Device.takeHistoryFlush_of_asked hlen hask ht hs fun c _ => hp c, ← hfinal]
  simp only [Device.flushNow_eq]
  by_cases hnil : d.atOnce all = []
  · have hincomplete : ¬ o.complete = true := by simp [o, all, Operation.complete]
    change (d.atOnce all).foldl _ _ = _
    simp only [work]
    rw [hnil, Operation.settleAll_nil, Device.ended, if_neg hincomplete]
    rfl
  · refine (Device.foldl_settleOp (f := fun c u => u.flushFrom .all c u) hops (some .channel) hnodup (o := o)
      (Device.tag_ne_of_free ht) hsub hnil d).trans ?_
    rw [hbefore]

/-- The reply of a flush of all channels that is done on all of them (R106). -/
theorem reply_of_flush_all (tag : Byte) :
    (⟨tag, .flush .all, ([0, 1, 2, 3] : List Chan).map fun c => ⟨c, .done, some .channel⟩, .none⟩ : Operation).reply =
      ⟨tag, .ok, Kind.historyFlush, [15, 15, 0, 0, 0, 0]⟩ := rfl

/-! ## The payload (R168) -/

theorem flushRect_window {r : Rect} (hx : r.x0 < 65536) (hy : r.y0 < 65536) (hw : r.w < 65536) (hh : r.h < 65536)
    (a b : Byte) : flushRect ([a, b] ++ byte2 r.x0 ++ byte2 r.y0 ++ byte2 r.w ++ byte2 r.h) = r := by
  have h4 : wordAt (byte2 r.h ++ []) 0 = r.h := wordAt_byte2 hh []
  simp only [flushRect, List.append_assoc, List.cons_append, List.nil_append, wordAt_cons_succ, wordAt_byte2_succ,
    wordAt_byte2 hx, wordAt_byte2 hy, wordAt_byte2 hw]
  rw [List.append_nil] at h4
  rw [h4]

theorem acceptable_iff (r : Rect) (n : Nat) : r.acceptable n = true ↔ r.x0 % 2 = 0 ∧ r.y0 % 2 = 0 ∧ r.w % 2 = 0 ∧
    r.h % 2 = 0 ∧ r.w ≠ 0 ∧ r.h ≠ 0 ∧ r.x0 + r.w ≤ 720 ∧ r.y0 + r.h ≤ n := by
  simp only [Rect.acceptable, Bool.and_eq_true, decide_eq_true_eq, and_assoc]

theorem Device.flushAsk_window {r : Rect} (hx : r.x0 < 65536) (hy : r.y0 < 65536) (hw : r.w < 65536) (hh : r.h < 65536)
    (c : Chan) (d : Device) :
    d.flushAsk ([3, BitVec.ofNat 8 c.val] ++ byte2 r.x0 ++ byte2 r.y0 ++ byte2 r.w ++ byte2 r.h) =
      if r.acceptable (d.chan c).settings.system.frameLines then some (.window r, [c]) else none := by
  have hc : chanOf (byteAt ([3, BitVec.ofNat 8 c.val] ++ byte2 r.x0 ++ byte2 r.y0 ++ byte2 r.w ++ byte2 r.h) 1) = some c := by
    have : byteAt ([3, BitVec.ofNat 8 c.val] ++ byte2 r.x0 ++ byte2 r.y0 ++ byte2 r.w ++ byte2 r.h) 1 = c.val :=
      toNat_byte (by omega)
    rw [this, chanOf_val]
  have hzero : byteAt ([3, BitVec.ofNat 8 c.val] ++ byte2 r.x0 ++ byte2 r.y0 ++ byte2 r.w ++ byte2 r.h) 0 = 3 := rfl
  unfold Device.flushAsk
  rw [hzero, hc, flushRect_window hx hy hw hh]
  rfl

theorem Device.flushAsk_channel (c : Chan) (w : List Byte) (d : Device) :
    d.flushAsk ([0, BitVec.ofNat 8 c.val] ++ w) = some (.channel, [c]) := by
  have hc : byteAt ([0, BitVec.ofNat 8 c.val] ++ w) 1 = c.val := toNat_byte (by omega)
  have hzero : byteAt ([0, BitVec.ofNat 8 c.val] ++ w) 0 = 0 := rfl
  unfold Device.flushAsk
  rw [hzero, hc, chanOf_val]
  rfl

theorem Device.flushAsk_of_range {b' b : Byte} (h : b'.toNat = 1 ∨ 3 < b'.toNat ∨ (b'.toNat ≠ 2 ∧ 3 < b.toNat)) (w : List Byte)
    (d : Device) : d.flushAsk ([b', b] ++ w) = none := by
  have hzero : byteAt ([b', b] ++ w) 0 = b'.toNat := rfl
  have hone : byteAt ([b', b] ++ w) 1 = b.toNat := rfl
  unfold Device.flushAsk
  rw [hzero, hone]
  split
  · rw [chanOf_of_three_lt (by omega)]
    rfl
  · omega
  · rw [chanOf_of_three_lt (by omega)]
  · rfl

/-- A WINDOW flush is performed as WINDOW unless an AUTO film lock stands (R104). -/
theorem flushWindow_window (r : Rect) (cadence : Cadence) : flushWindow (.window r) cadence =
    if (∃ q, cadence = .film22 q) ∨ ∃ q, cadence = .film32 q then none else some r := by
  cases cadence <;> simp [flushWindow]

/-- A flush that is performed as CHANNEL, whatever its scope (R101, R104). -/
theorem Device.flushFrom_of_channel {asked : FlushScope} (h : flushWindow asked (d.chan c).tracker.cadence = none)
    (u : Device) : d.flushFrom asked c u = (u.setChan c { d.chan c with
        intake := { (d.chan c).intake with ring := (d.chan c).intake.ring.map fun f => { f with stale := true } }
        recon := { (d.chan c).recon with windowMemory := none }
        tracker := (d.chan c).tracker.restarted }).cadenceTold c (d.chan c).tracker (d.chan c).tracker.restarted .flush := by
  rw [Device.flushFrom, Channel.flushed, h]
  dsimp only
  rw [Tracker.cleared_eq]

theorem Device.flushFrom_of_window {asked : FlushScope} {r : Rect}
    (h : flushWindow asked (d.chan c).tracker.cadence = some r) (u : Device) : d.flushFrom asked c u =
      u.setChan c { d.chan c with recon := { (d.chan c).recon with windowMemory := some ⟨r, 2⟩ } } := by
  rw [Device.flushFrom, Channel.flushed, h]
  exact Device.cadenceTold_self ..

/-- Settles O37, by the scope and the channel's state. -/
theorem flushPendsOrPerforms : Obligations.FlushPendsOrPerforms := by
  intro s tag c r b w hready ht hw hx hy hrw hrh ch good window channel chans bit auto answered takes cleared performsChannel
    running done
  have hanswered : ∀ {p : List Byte} {dev : Device}, s.dev.takeHistoryFlush tag p = dev → answered p dev := by
    rintro p _ rfl
    exact exec_historyFlush_of_ready hready tag p
  have hlenWindow : window.length = 10 := rfl
  have hlen : ∀ a b' : Byte, ([a, b'] ++ w).length = 10 := fun a b' => by simp [hw]
  have hgood : good ↔ r.acceptable ch.settings.system.frameLines = true := by
    rw [acceptable_iff]
    exact Iff.rfl
  have haskWindow : good → s.dev.flushAsk window = some (.window r, [c]) := fun h => by
    rw [Device.flushAsk_window hx hy hrw hrh, if_pos (hgood.1 h)]
  have haskChannel : s.dev.flushAsk channel = some (.channel, [c]) := Device.flushAsk_channel c w s.dev
  have haskAll : s.dev.flushAsk ([2, b] ++ w) = some (.all, [0, 1, 2, 3]) := rfl
  have hchannel : ∀ {p : List Byte} {asked : FlushScope}, p.length = 10 → s.dev.flushAsk p = some (asked, [c]) →
      flushWindow asked ch.tracker.cadence = none → s.dev.ops.length < 4 → s.dev.isPending .flush c = false →
      ch.state ≠ .running → performsChannel p := by
    intro p asked hl hask hnone hs hp hidle
    refine hanswered ((Device.takeHistoryFlush_of_idle hl hask ht hs hp hidle).trans ?_)
    rw [Device.flushFrom_of_channel hnone, Channel.flushScope, hnone]
    rfl
  have hwork : (s.dev.atOnce [0, 1, 2, 3]).foldl (fun u k => s.dev.flushFrom .all k u) s.dev = done := by
    rw [Device.foldl_atOnce]
    refine List.foldl_ext _ _ _ fun u k _ => ?_
    simp only [running, decide_eq_true_eq]
    split
    · rfl
    · exact Device.flushFrom_of_channel rfl u
  have hts : (chans.map fun k => if (s.dev.chan k).state = .running then (⟨k, .clear, none⟩ : Target)
        else ⟨k, .done, some .channel⟩) =
      chans.map fun k => if running k then ⟨k, .clear, none⟩ else ⟨k, .done, some .channel⟩ :=
    List.map_congr_left fun k _ => by simp only [running, decide_eq_true_eq]
  have hops : done.ops = s.dev.ops := by
    rw [← hwork]
    exact Device.foldl_flushFrom_ops ..
  refine ⟨fun hp hs => ⟨fun hg hrun => hanswered ?_, fun hrun => hanswered ?_, fun hg hidle hauto => hanswered ?_,
    fun hg hidle hauto => ?_, fun hidle => ?_⟩, fun hbusy => ⟨fun hg => hanswered ?_, hanswered ?_⟩,
    fun hp hs => ⟨fun hrun => hanswered ?_, fun hrun => hanswered ?_⟩, fun hbusy => hanswered ?_, fun hg => hanswered ?_,
    fun b' hb' => hanswered ?_⟩
  · exact Device.takeHistoryFlush_of_running hlenWindow (haskWindow hg) ht hs hp hrun
  · exact Device.takeHistoryFlush_of_running (hlen _ _) haskChannel ht hs hp hrun
  · have hwindow : flushWindow (.window r) ch.tracker.cadence = some r := (flushWindow_window ..).trans (if_neg hauto)
    rw [Device.takeHistoryFlush_of_idle hlenWindow (haskWindow hg) ht hs hp hidle, Device.flushFrom_of_window hwindow,
      Channel.flushScope, hwindow]
    rfl
  · exact hchannel hlenWindow (haskWindow hg) ((flushWindow_window ..).trans (if_pos hauto)) hs hp hidle
  · exact hchannel (hlen _ _) haskChannel rfl hs hp hidle
  · exact Device.takeHistoryFlush_of_busy hlenWindow (haskWindow hg) ht (by simpa using hbusy)
  · exact Device.takeHistoryFlush_of_busy (hlen _ _) haskChannel ht (by simpa using hbusy)
  · obtain ⟨k, hk⟩ := hrun
    have hrun' : ∃ k ∈ ([0, 1, 2, 3] : List Chan), (s.dev.chan k).state = .running :=
      ⟨k, by fin_cases k <;> decide, of_decide_eq_true hk⟩
    rw [Device.takeHistoryFlush_of_all (hlen _ _) haskAll ht hs hp, Device.ended_of_running hrun', hwork, hts]
  · have hidle : ∀ k ∈ ([0, 1, 2, 3] : List Chan), (s.dev.chan k).state ≠ .running := fun k _ => of_decide_eq_false (hrun k)
    have hdone : (([0, 1, 2, 3] : List Chan).map fun k =>
        if (s.dev.chan k).state = .running then (⟨k, .clear, none⟩ : Target) else ⟨k, .done, some .channel⟩) =
        ([0, 1, 2, 3] : List Chan).map fun k => ⟨k, .done, some .channel⟩ := List.map_congr_left fun k hk => if_neg (hidle k hk)
    rw [Device.takeHistoryFlush_of_all (hlen _ _) haskAll ht hs hp, Device.ended, if_pos ((targets_complete_iff ..).2 hidle),
      hdone, reply_of_flush_all, hwork, ← hops]
    rfl
  · refine Device.takeHistoryFlush_of_busy (hlen _ _) haskAll ht (hbusy.imp_left ?_)
    rintro ⟨k, hk⟩
    exact ⟨k, by fin_cases k <;> decide, hk⟩
  · refine Device.takeHistoryFlush_of_range hlenWindow ?_
    rw [Device.flushAsk_window hx hy hrw hrh, if_neg fun h => hg (hgood.2 h)]
  · exact Device.takeHistoryFlush_of_range (hlen _ _) (Device.flushAsk_of_range hb' w s.dev)

end Sys2Proof.Machine
end


section
/-! PROOFS. TIMING_SELECT (R127). -/

namespace Sys2Proof.Machine

variable {s : State} {d : Device} {tag : Byte} {c : Chan}

theorem exec_timingSelect_of_ready (h : s.dev.Ready) (tag : Byte) (p : List Byte) :
    exec (.timingSelect tag p) s = .next { s with dev := s.dev.takeTimingSelect tag p } :=
  State.onCommand_of_ready h _ _ _

/-- What TIMING_SELECT of a source does outside an acquisition, once it has its slot. -/
def Device.selectSource (c : Chan) (prior : Settled) : TimingSource → Device → Device
  | .internal, d => (d.selectInternal c).settleTiming c .command
  | .house, d => d.beginAcquisition c .house prior
  | .input, d => d.beginAcquisition c .input prior

theorem Device.selectSource_source (c : Chan) (prior : Settled) (src : RefSource) (d : Device) :
    d.selectSource c prior src.source = d.beginAcquisition c src prior := by
  cases src <;> rfl

theorem Device.takeTimingSelect_of_source {p : List Byte} (hlen : p.length = 2) (hc : chanOf (byteAt p 0) = some c)
    {source : TimingSource} (hsource : timingSourceOf (byteAt p 1) = some source) {prior : Settled}
    (hg : (d.chan c).gen.state = .settled prior) (ht : d.tagInUse tag = false) (hs : d.ops.length < 4) :
    d.takeTimingSelect tag p = (d.takeSlot tag .timing [c]).selectSource c prior source := by
  rw [Device.takeTimingSelect, if_neg (not_not.2 hlen), hc, hsource]
  dsimp only
  rw [Device.unlessFull_of_free ht hs, hg]
  cases source <;> rfl

theorem Device.takeTimingSelect_of_busy {p : List Byte} (hlen : p.length = 2) (hc : chanOf (byteAt p 0) = some c)
    {source : TimingSource} (hsource : timingSourceOf (byteAt p 1) = some source) (ht : d.tagInUse tag = false)
    (h : (∃ a, (d.chan c).gen.state = .acquire a) ∨ 4 ≤ d.ops.length) :
    d.takeTimingSelect tag p = d.answer tag Kind.timingSelect .busy [] := by
  rw [Device.takeTimingSelect, if_neg (not_not.2 hlen), hc, hsource]
  dsimp only
  by_cases hs : d.ops.length < 4
  · obtain ⟨a, ha⟩ := h.resolve_right (by omega)
    rw [Device.unlessFull_of_free ht hs, ha]
  · exact Device.unlessFull_of_full ht (by omega) _ _

theorem timingSourceOf_source (src : RefSource) : timingSourceOf src.source.code.toNat = some src.source := by
  cases src <;> rfl

theorem timingSourceOf_of_le {n : Nat} (h : n ≤ 2) : ∃ source, timingSourceOf n = some source := by
  match n, h with
  | 0, _ => exact ⟨_, rfl⟩
  | 1, _ => exact ⟨_, rfl⟩
  | 2, _ => exact ⟨_, rfl⟩

theorem timingSourceOf_of_lt {n : Nat} (h : 2 < n) : timingSourceOf n = none := by
  unfold timingSourceOf
  split
  · omega
  · omega
  · omega
  · rfl

/-- A commanded acquisition begins: the generator acquires, and TIMING says so (R127). -/
theorem Device.beginAcquisition_eq (c : Chan) (target : RefSource) (prior : Settled) (d : Device) :
    d.beginAcquisition c target prior = (d.setChan c { d.chan c with gen := { (d.chan c).gen with
      state := .acquire ⟨true, target, prior, (d.chan c).gen.kept, 0, d.now, false⟩ } }).raise (.timing c)
        (.timing target.source .acquire .command) := by
  unfold Device.beginAcquisition Device.setTiming Device.raiseTiming
  rw [Device.chan_modChan_self]
  cases target <;> rfl

/-- INTERNAL sets FREE, with TIMING where the state was another (R127). -/
theorem Device.selectInternal_eq {prior : Settled} (hg : (d.chan c).gen.state = .settled prior) :
    d.selectInternal c = if prior = .free then d else
      (d.setChan c { d.chan c with gen := { (d.chan c).gen with state := .settled .free } }).raise (.timing c)
        (.timing .internal .free .command) := by
  unfold Device.selectInternal Device.raiseTiming Device.setTiming
  rw [hg, Device.chan_modChan_self]
  cases prior <;> rfl

theorem Device.selectInternal_with_ops {prior : Settled} (hg : (d.chan c).gen.state = .settled prior)
    (ops : List Operation) :
    ({ d with ops := ops } : Device).selectInternal c = { d.selectInternal c with ops := ops } := by
  rw [Device.selectInternal_eq (d := { d with ops := ops }) hg, Device.selectInternal_eq hg]
  split
  · rfl
  · exact Device.raise_with_ops _ _ _ (d.setChan c _)

theorem Device.selectInternal_chan {prior : Settled} (hg : (d.chan c).gen.state = .settled prior) :
    (d.selectInternal c).chan c = { d.chan c with gen := { (d.chan c).gen with state := .settled .free } } := by
  rw [Device.selectInternal_eq hg]
  split
  · rename_i hfree
    rw [← hfree, ← hg]
  · rw [Device.raise_chan, Device.chan_setChan_self]

theorem works_selectInternal (c : Chan) (d : Device) : Works c d (d.selectInternal c) := by
  unfold Device.selectInternal
  split
  · exact .refl c d
  · exact (works_setTiming c _ d).trans (works_raiseTiming c _ _)

theorem Device.selectInternal_parts {prior : Settled} (hg : (d.chan c).gen.state = .settled prior) :
    (d.selectInternal c).ops = d.ops ∧ (d.selectInternal c).dropLog = d.dropLog := by
  rw [Device.selectInternal_eq hg]
  split
  · exact ⟨rfl, rfl⟩
  · exact ⟨by simp, by simp [Device.setChan]⟩

/-- The operation that has just entered the table is the one pending where none was. -/
theorem Device.pendingOp_at_end {ops : List Operation} {o : Operation} {k : OpName} {c : Chan} (ho : d.ops = ops ++ [o])
    (h : ∀ x ∈ ops, (decide (x.kind.name = k) && x.pendingOn c) = false) (hk : o.kind.name = k)
    (hp : o.pendingOn c = true) : d.pendingOp k c = some o := by
  rw [Device.pendingOp, ho, List.find?_append, List.find?_eq_none.2 (by simpa using h)]
  simp [hk, hp]

/-- INTERNAL ends its own operation with COMMAND, INTERNAL and FREE (R127). -/
theorem Device.selectInternal_taken {prior : Settled} (hg : (d.chan c).gen.state = .settled prior)
    (ht : d.tagInUse tag = false) (hp : d.isPending .timing c = false) :
    ((d.takeSlot tag .timing [c]).selectInternal c).settleTiming c .command =
      (d.selectInternal c).answer tag Kind.timingSelect .ok [0, 0, 0] := by
  let o : Operation := ⟨tag, .timing, [⟨c, .clear, none⟩], .none⟩
  have hwith : (d.takeSlot tag .timing [c]).selectInternal c = { d.selectInternal c with ops := d.ops ++ [o] } :=
    Device.selectInternal_with_ops hg _
  obtain ⟨hops, -⟩ := Device.selectInternal_parts hg
  have hnone : ∀ x ∈ d.ops, (decide (x.kind.name = .timing) && x.pendingOn c) = false := fun x hx => by
    have hnil := Device.isPending_eq_false.1 hp
    have := List.filter_eq_nil_iff.1 hnil x hx
    simpa using this
  have hpending : ({ d.selectInternal c with ops := d.ops ++ [o] } : Device).pendingOp .timing c = some o :=
    Device.pendingOp_at_end rfl hnone rfl (by simp [o, Operation.pendingOn, Target.pendingOn])
  have hstate : (({ d.selectInternal c with ops := d.ops ++ [o] } : Device).chan c).gen.state = .settled .free :=
    congrArg (fun ch : Channel => ch.gen.state) (Device.selectInternal_chan hg)
  rw [hwith, Device.settleTiming, hpending]
  dsimp only
  rw [hstate, Device.settleOp_single (d := { d.selectInternal c with ops := d.ops ++ [o] }) (kind := .timing) rfl
    (Device.tag_ne_of_free ht), ← hops]
  rfl

/-- Settles O38, by the source. -/
theorem timingSelectBeginsAcquisition : Obligations.TimingSelectBeginsAcquisition := by
  intro s tag c hready ht g p timed
  simp only [exec_timingSelect_of_ready hready]
  have hc : ∀ b, chanOf (byteAt (p b) 0) = some c := fun b => chanOf_byteAt_chan c [b]
  refine ⟨fun prior src hg hs => ?_, fun prior hg hp hs => ?_, fun b hb hbusy => ?_, fun channel source hbad => ?_⟩
  · let ops := s.dev.ops ++ [⟨tag, .timing, [⟨c, .clear, none⟩], .none⟩]
    let begun := ({ s.dev with ops := ops } : Device).beginAcquisition c src prior
    have htake : s.dev.takeTimingSelect tag (p src.source.code) = begun := by
      rw [Device.takeTimingSelect_of_source (p := p src.source.code) rfl (hc _) (timingSourceOf_source src) hg ht hs,
        Device.selectSource_source]
      rfl
    have hworks : Works c { s.dev with ops := ops } begun :=
      (works_setTiming c _ _).trans (works_raiseTiming c _ _)
    have heq := Device.beginAcquisition_eq c src prior { s.dev with ops := ops }
    refine ⟨{ s with dev := begun }, by rw [htake], heq, ?_,
      Device.keepsRest_of_shell (hworks.shell.trans rfl) hworks.others, ?_, ?_⟩
    · exact (congrArg (fun u : Device => u.chan c) heq).trans (by rw [Device.raise_chan, Device.chan_setChan_self]; rfl)
    · exact (congrArg Device.dropLog heq).trans (by rw [Device.raise_dropLog]; rfl)
    · exact (congrArg Device.ops heq).trans (by rw [Device.raise_ops]; rfl)
  · obtain ⟨hops, hlog⟩ := Device.selectInternal_parts hg
    have htake : s.dev.takeTimingSelect tag (p 0) =
        (s.dev.selectInternal c).answer tag Kind.timingSelect .ok [0, 0, 0] :=
      (Device.takeTimingSelect_of_source (p := p 0) (source := .internal) rfl (hc 0) rfl hg ht hs).trans
        (Device.selectInternal_taken hg ht hp)
    have heq := Device.selectInternal_eq hg
    refine ⟨{ s with dev := (s.dev.selectInternal c).answer tag Kind.timingSelect .ok [0, 0, 0] }, by rw [htake],
      fun hfree => ?_, fun hfree => ?_, (Device.answer_chan ..).trans (Device.selectInternal_chan hg),
      (works_selectInternal c s.dev).keepsRest_answer .., (Device.answer_dropLog ..).trans hlog,
      (Device.answer_ops ..).trans hops⟩
    · rw [heq, if_neg hfree]
      rfl
    · rw [heq, if_pos hfree]
      rfl
  · obtain ⟨source, hsource⟩ := timingSourceOf_of_le hb
    rw [Device.takeTimingSelect_of_busy (p := p b) rfl (hc b) hsource ht hbusy]
    rfl
  · have hbad' : chanOf (byteAt [channel, source] 0) = none ∨ timingSourceOf (byteAt [channel, source] 1) = none :=
      hbad.imp chanOf_of_three_lt timingSourceOf_of_lt
    have htake : s.dev.takeTimingSelect tag [channel, source] = s.dev.answer tag Kind.timingSelect .range [] := by
      rw [Device.takeTimingSelect, if_neg (by simp)]
      obtain h | h := hbad'
      · rw [h]
      · rw [h]
        cases chanOf (byteAt [channel, source] 0) <;> rfl
    rw [htake]
    rfl

end Sys2Proof.Machine
end


section
/-! PROOFS. CHANNEL_START and CHANNEL_STOP (R144, R145). -/

namespace Sys2Proof.Machine

variable {s : State} {d : Device} {tag : Byte} {c : Chan}

/-! ## CHANNEL_START (R144) -/

theorem exec_channelStart_of_ready (h : s.dev.Ready) (tag : Byte) (p : List Byte) :
    exec (.channelStart tag p) s = .next { s with dev := s.dev.takeChannelStart tag p } :=
  State.onCommand_of_ready h _ _ _

/-- A cadence has the code of SEEK when it is SEEK. -/
theorem Cadence.code_eq_seek_iff (x : Cadence) : x.code = Tracker.reset.cadence.code ↔ x = .seek := by
  cases x <;> simp [Cadence.code, Tracker.reset]

/-- A channel that starts, with CADENCE where its tracker was not in SEEK (R144). -/
theorem Device.startChannel_eq (c : Chan) (d : Device) :
    let started := { (d.chan c).started d.now with tracker := .reset }
    d.startChannel c = if (d.chan c).tracker.cadence = .seek then d.setChan c started
      else (d.setChan c started).raise (.cadence c) (.cadence .seek .start) := by
  intro started
  have htracker : ((d.chan c).started d.now).tracker = (d.chan c).tracker := rfl
  unfold Device.startChannel
  rw [Device.setTracker_eq, Device.chan_modChan_self, htracker, Device.modChan, Device.setChan_setChan, Device.cadenceTold]
  exact if_congr (Cadence.code_eq_seek_iff _) rfl rfl

/-- Settles O23, by the channel's state. -/
theorem channelStartBeginsRun : Obligations.ChannelStartBeginsRun := by
  intro s tag c hready ht ch started raised
  simp only [exec_channelStart_of_ready hready]
  refine ⟨fun hstate => ?_, fun hstate => ?_, fun b hb => ?_⟩
  · have hraised : s.dev.startChannel c = raised := Device.startChannel_eq c s.dev
    have hworks : Works c s.dev raised := hraised ▸ works_startChannel c s.dev
    refine ⟨?_, ?_, hworks.keepsRest, ?_⟩
    · rw [Device.takeChannelStart, Device.withChannel_of_chan, if_neg (not_not.2 hstate), Device.unlessTagged_of_free ht,
        hraised]
      rfl
    · simp only [raised]
      split
      · exact Device.chan_setChan_self ..
      · exact (Device.raise_chan ..).trans (Device.chan_setChan_self ..)
    · simp only [raised]
      split
      · exact ⟨rfl, rfl, rfl⟩
      · exact ⟨Device.raise_ops .., Device.raise_dropLog .., Device.raise_overflow ..⟩
  · rw [Device.takeChannelStart, Device.withChannel_of_chan, if_pos hstate]
    rfl
  · rw [Device.takeChannelStart, Device.withChannel_of_three_lt hb]
    rfl

/-! ## CHANNEL_STOP (R145) -/

theorem exec_channelStop_of_ready (h : s.dev.Ready) (tag : Byte) (p : List Byte) :
    exec (.channelStop tag p) s = .next { s with dev := s.dev.takeChannelStop tag p } :=
  State.onCommand_of_ready h _ _ _

/-- A channel that stops, before what is pending on it is settled (R145). -/
def Channel.stopping (ch : Channel) : Channel :=
  { ch with
    state := .stopping
    intake := { ch.intake with field := none, ring := ch.intake.keptRing, timeout := none } }

/-- The records of the field in intake close, and the channel stops. -/
theorem Device.stopUnsettled_eq (c : Chan) (d : Device) :
    d.stopUnsettled c = ((d.chan c).intake.openRecords.foldl Device.logRecord d).setChan c (d.chan c).stopping := by
  unfold Device.stopUnsettled
  rw [Device.dropField_eq]
  simp only [Device.modChan, Device.chan_setChan_self, Device.setChan_setChan]
  exact (congrArg (fun u : Device => u.setChan c (d.chan c).stopping)
    (Device.logRecords_setChan (d.chan c).intake.openRecords d c _)).trans (Device.setChan_setChan ..)

/-- What the settling of a channel's pending work leaves of the channel: its state, what goes on air and is to come, and an
intake without a field (R34, R104, R155). -/
structure Channel.KeepsRun (ch ch' : Channel) : Prop where
  state : ch'.state = ch.state
  field : ch'.intake.field = ch.intake.field
  timeout : ch'.intake.timeout = ch.intake.timeout
  sync : ch'.sync = ch.sync
  gen : ch'.gen = ch.gen
  jobs : ch'.recon.jobs = ch.recon.jobs

theorem Channel.KeepsRun.refl (ch : Channel) : ch.KeepsRun ch := ⟨rfl, rfl, rfl, rfl, rfl, rfl⟩

theorem Channel.KeepsRun.trans {a b c : Channel} (h : a.KeepsRun b) (h' : b.KeepsRun c) : a.KeepsRun c :=
  ⟨h'.state.trans h.state, h'.field.trans h.field, h'.timeout.trans h.timeout, h'.sync.trans h.sync, h'.gen.trans h.gen,
    h'.jobs.trans h.jobs⟩

theorem Channel.keepsRun_flushed (ch : Channel) (asked : FlushScope) : ch.KeepsRun (ch.flushed asked) := by
  unfold Channel.flushed
  split <;> exact ⟨rfl, rfl, rfl, rfl, rfl, rfl⟩

theorem Device.keepsRun_leaveRunning (c : Chan) (d : Device) : (d.chan c).KeepsRun ((d.leaveRunning c).chan c) := by
  have hcommit : (d.chan c).KeepsRun ((d.settleCommit c).chan c) := by
    rw [Device.settleCommit_chan]
    exact ⟨rfl, rfl, rfl, rfl, rfl, rfl⟩
  have hrefresh : ∀ d : Device, (d.chan c).KeepsRun ((d.settleRefresh c).chan c) := fun d => by
    rw [Device.settleRefresh_chan]
    exact ⟨rfl, rfl, rfl, rfl, rfl, rfl⟩
  have hflush : ∀ d : Device, (d.chan c).KeepsRun ((d.settleFlush c).chan c) := fun d => by
    rw [Device.settleFlush_chan]
    split
    · exact Channel.keepsRun_flushed ..
    · exact .refl _
  exact (hcommit.trans (hrefresh _)).trans (hflush _)

/-! ### An operation that stays while others are settled -/

/-- An operation is in the table and alone has its tag. -/
def Device.HoldsOp (d : Device) (op : Operation) : Prop := op ∈ d.ops ∧ ∀ o ∈ d.ops, o.tag = op.tag → o = op

theorem Device.holdsOp_congr {d d' : Device} (h : d'.ops = d.ops) {op : Operation} (ho : d.HoldsOp op) : d'.HoldsOp op := by
  rw [Device.HoldsOp, h]
  exact ho

theorem Device.holdsOp_settleOp {op : Operation} (h : d.HoldsOp op) {tag : Byte} (hne : tag ≠ op.tag) (c : Chan)
    (flag : DoneFlag) (p : Option FlushDone) (r : OpResult) : (d.settleOp tag c flag p r).HoldsOp op := by
  obtain ⟨hmem, hunique⟩ := h
  have hmap : op ∈ d.ops.map fun o => if o.tag = tag then o.settle c flag p r else o :=
    List.mem_map.2 ⟨op, hmem, if_neg hne.symm⟩
  have hall : ∀ o ∈ d.ops.map fun o => if o.tag = tag then o.settle c flag p r else o, o.tag = op.tag → o = op := by
    intro o ho
    obtain ⟨x, hx, rfl⟩ := List.mem_map.1 ho
    split
    · rename_i hx'
      exact fun e => absurd (hx'.symm.trans e) hne
    · exact hunique x hx
  obtain e | e := d.settleOp_ops_cases tag c flag p r
  · rw [Device.HoldsOp, e]
    exact ⟨hmap, hall⟩
  · rw [Device.HoldsOp, e]
    exact ⟨List.mem_filter.2 ⟨hmap, decide_eq_true hne.symm⟩, fun o ho => hall o (List.mem_of_mem_filter ho)⟩

/-- The operation of a kind that is pending has another tag than an operation of another kind. -/
theorem Device.HoldsOp.tag_ne {op : Operation} (h : d.HoldsOp op) {k : OpName} {c : Chan} {o : Operation}
    (ho : d.pendingOp k c = some o) (hk : op.kind.name ≠ k) : o.tag ≠ op.tag := fun e => by
  obtain ⟨hmem, hkind, -⟩ := Device.mem_of_pendingOp ho
  exact hk (h.2 o hmem e ▸ hkind)

theorem Device.holdsOp_endsPending {op : Operation} {u : Device} {k : OpName} (h : d.HoldsOp op) (hu : u.HoldsOp op)
    (hk : op.kind.name ≠ k) (c : Chan) (p : Option FlushDone) (r : OpResult) : (d.endsPending k c p r u).HoldsOp op := by
  unfold Device.endsPending
  split
  · rename_i o ho
    exact Device.holdsOp_settleOp hu (h.tag_ne ho hk) c .done p r
  · exact hu

/-- A stop stays in flight while what was pending is settled. -/
theorem Device.holdsOp_leaveRunning {op : Operation} (h : d.HoldsOp op) (hk : op.kind.name = .stop) (c : Chan) :
    (d.leaveRunning c).HoldsOp op := by
  have hcommit : (d.settleCommit c).HoldsOp op := by
    rw [Device.settleCommit_eq]
    exact Device.holdsOp_endsPending h (Device.holdsOp_congr (Device.setChan_ops ..) h) (by rw [hk]; decide) c _ _
  have hrefresh : ∀ d : Device, d.HoldsOp op → (d.settleRefresh c).HoldsOp op := fun d h => by
    rw [Device.settleRefresh_eq]
    exact Device.holdsOp_endsPending h (Device.holdsOp_congr (by simp) h) (by rw [hk]; decide) c _ _
  have hflush : ∀ d : Device, d.HoldsOp op → (d.settleFlush c).HoldsOp op := fun d h => by
    rw [Device.settleFlush_eq]
    split
    · exact Device.holdsOp_endsPending h (Device.holdsOp_congr (by simp) h) (by rw [hk]; decide) c _ _
    · exact h
  exact hflush _ (hrefresh _ hcommit)

/-! ### The stop -/

/-- An operation of another kind at the end of the table changes nothing of what is pending. -/
theorem Device.pendingOps_of_append {d d' : Device} {op : Operation} (h : d'.ops = d.ops ++ [op]) {k : OpName}
    (hk : op.kind.name ≠ k) (c : Chan) : d'.pendingOps k c = d.pendingOps k c := by
  rw [Device.pendingOps, Device.pendingOps, h, List.filter_append, List.filter_cons_of_neg (by simp [hk]), List.filter_nil,
    List.append_nil]

/-- What the settling of a channel's work raises and answers depends on the commit, the refresh and the flush pending and
on the profile table. -/
theorem Channel.settling_of_pendingOp {d d' : Device} {c : Chan} (hp : d'.profiles = d.profiles)
    (hk : ∀ k : OpName, k = .commit ∨ k = .refresh ∨ k = .flush → d'.pendingOp k c = d.pendingOp k c) (ch : Channel)
    (u : Device) : ch.settling d' c u = ch.settling d c u := by
  have he : ∀ k : OpName, k = .commit ∨ k = .refresh ∨ k = .flush → ∀ p r u,
      d'.endsPending k c p r u = d.endsPending k c p r u := fun k hk' p r u => Device.endsPending_congr (hk k hk') p r u
  rw [Channel.settling, Channel.settling, Device.flushPending, Device.flushPending, Device.isPending, Device.isPending, hp,
    hk .refresh (by simp), hk .flush (by simp)]
  simp only [he .commit (by simp), he .refresh (by simp), he .flush (by simp)]

theorem Device.takeChannelStop_of_free (h : (d.chan c).state = .running ∨ (d.chan c).state = .holding)
    (ht : d.tagInUse tag = false) (hs : d.ops.length < 4) : d.takeChannelStop tag [BitVec.ofNat 8 c.val] =
      (d.takeSlot tag .stop [c]).stopChannel c := by
  have htakes : (d.chan c).takesInput = true := by
    rw [Channel.takesInput]
    obtain h | h := h <;> rw [h] <;> rfl
  rw [Device.takeChannelStop, Device.withChannel_of_chan, htakes, if_neg (by decide)]
  exact Device.unlessFull_of_free ht hs _ _

/-- Settles O24, by the channel's state. -/
theorem channelStopBeginsStop : Obligations.ChannelStopBeginsStop := by
  intro s tag c hready ht ch op stopping closed
  simp only [exec_channelStop_of_ready hready]
  refine ⟨fun hstate hs => ?_, fun hstate hs => ?_, fun hrun hhold => ?_, fun b hb => ?_⟩
  · let taken : Device := { s.dev with ops := s.dev.ops ++ [op] }
    let unsettled := closed.setChan c stopping
    have hclosed : closed = taken.logRecords ch.intake.openRecords := rfl
    have hclosedOps : closed.ops = s.dev.ops ++ [op] := hclosed ▸ Device.logRecords_ops ..
    have hunsettled : taken.stopUnsettled c = unsettled := Device.stopUnsettled_eq c taken
    have hchan : unsettled.chan c = stopping := Device.chan_setChan_self ..
    have hops : unsettled.ops = s.dev.ops ++ [op] := (Device.setChan_ops ..).trans hclosedOps
    have hstop : taken.stopChannel c = if ch.state = .running then unsettled.leaveRunning c else unsettled := by
      rw [Device.stopChannel_eq, hunsettled]
      rfl
    have hkeeps : stopping.KeepsRun ((taken.stopChannel c).chan c) := by
      rw [hstop]
      split
      · exact hchan ▸ Device.keepsRun_leaveRunning c unsettled
      · exact hchan ▸ .refl _
    have hfree := Device.tag_ne_of_free ht
    have hholds : unsettled.HoldsOp op := by
      rw [Device.HoldsOp, hops]
      refine ⟨by simp, fun o ho e => ?_⟩
      obtain ho | ho := List.mem_append.1 ho
      · exact absurd e (hfree o ho)
      · exact List.mem_singleton.1 ho
    have hlogged : s.dev.Logged ch.intake.openRecords unsettled := Device.logRecords_log ch.intake.openRecords taken
    have hpending : ∀ k, k = .commit ∨ k = .refresh ∨ k = .flush → unsettled.pendingOps k c = s.dev.pendingOps k c :=
      fun k hk => Device.pendingOps_of_append hops (by rcases hk with rfl | rfl | rfl <;> simp [op, OpKind.name]) c
    have hnodup : s.dev.OpsDistinct → (unsettled.ops.map (·.tag)).Nodup := fun hdistinct => by
      rw [hops, List.map_append, List.map_singleton]
      refine List.nodup_append.2 ⟨hdistinct.1, List.nodup_singleton _, fun a ha b hb => ?_⟩
      obtain ⟨o, ho, rfl⟩ := List.mem_map.1 ha
      rw [List.mem_singleton.1 hb]
      exact hfree o ho
    refine ⟨{ s with dev := taken.stopChannel c }, ?_, hkeeps.state, hkeeps.field, hkeeps.timeout, hkeeps.sync, hkeeps.gen,
      hkeeps.jobs, ?_, ?_, ?_, fun hhold => ?_, fun hrun hdistinct => ?_, fun hfit k hk => ?_⟩
    · rw [Device.takeChannelStop_of_free hstate ht hs]
      rfl
    · rw [hstop]
      split
      · exact (Device.holdsOp_leaveRunning hholds rfl c).1
      · exact hholds.1
    · have hworks := works_stopChannel c taken
      exact Device.keepsRest_of_shell (hworks.shell.trans rfl) hworks.others
    · rw [hstop]
      split
      · obtain ⟨hlog, hover⟩ := Device.leaveRunning_log c unsettled
        exact ⟨hlog.trans hlogged.1, hover.trans hlogged.2⟩
      · exact hlogged
    · have hne : ch.state ≠ .running := by
        rw [hhold]
        decide
      rw [hstop, if_neg hne]
      exact ⟨rfl, hchan, hops⟩
    · have hprofiles : unsettled.profiles = s.dev.profiles := Device.logRecords_profiles ch.intake.openRecords taken
      have hpendingOp : ∀ k, k = .commit ∨ k = .refresh ∨ k = .flush → unsettled.pendingOp k c = s.dev.pendingOp k c :=
        fun k hk => by rw [Device.pendingOp_eq_head, Device.pendingOp_eq_head, hpending k hk]
      have hsettled : stopping.settled unsettled c = stopping.settled s.dev c :=
        Channel.settled_congr hprofiles hpendingOp stopping
      have hnodup := hnodup hdistinct
      rw [hstop, if_pos hrun]
      refine ⟨?_, ?_⟩
      · rw [Device.leaveRunning_chan hnodup, hchan, hsettled]
      · rw [Device.leaveRunning_eq hnodup, hchan, hsettled, Device.setChan_setChan,
          Channel.settling_of_pendingOp hprofiles hpendingOp]
    · obtain ⟨hdistinct, hfits⟩ := hfit
      rw [hstop]
      split
      · rename_i hrun
        refine Device.isPending_leaveRunning (hnodup hdistinct) (fun k' => ?_) hk
        by_cases hstopKind : k' = .stop
        · subst hstopKind
          have hnone : s.dev.pendingOps .stop c = [] := by
            rw [← Device.isPending_eq_false, Bool.eq_false_iff]
            intro hp
            have hstopping : ch.state = .stopping := (hfits .stop c).2 hp
            rw [hrun] at hstopping
            cases hstopping
          have happend : unsettled.pendingOps .stop c = s.dev.pendingOps .stop c ++
              [op].filter fun o => decide (o.kind.name = .stop) && o.pendingOn c := by
            rw [Device.pendingOps, hops, List.filter_append]
            rfl
          rw [happend, hnone, List.nil_append]
          exact List.length_filter_le _ _
        · rw [Device.pendingOps_of_append hops (fun e => hstopKind e.symm)]
          exact (hfits k' c).1
      · rename_i hne
        have hnone : s.dev.isPending k c = false := Bool.eq_false_iff.2 fun hp => hne (by
          have := (hfits k c).2 hp
          rcases hk with rfl | rfl | rfl <;> exact this)
        rw [Device.isPending_eq_false, hpending k hk, ← Device.isPending_eq_false]
        exact hnone
  · have htakes : (s.dev.chan c).takesInput = true := by
      rw [Channel.takesInput]
      obtain h | h := hstate <;> rw [h] <;> rfl
    rw [Device.takeChannelStop, Device.withChannel_of_chan, htakes, if_neg (by decide)]
    exact congrArg (fun d' => Host.Outcome.next { s with dev := d' }) (Device.unlessFull_of_full ht hs _ _)
  · have htakes : (s.dev.chan c).takesInput = false := by
      rw [Channel.takesInput, Bool.or_eq_false_iff]
      exact ⟨decide_eq_false hrun, decide_eq_false hhold⟩
    rw [Device.takeChannelStop, Device.withChannel_of_chan, htakes]
    rfl
  · rw [Device.takeChannelStop, Device.withChannel_of_three_lt hb]
    rfl

end Sys2Proof.Machine
end


section
/-! PROOFS. CHANNEL_RESET (R148, R149, R156). -/

namespace Sys2Proof.Machine

variable {s : State} {d : Device} {tag : Byte} {c : Chan}

theorem exec_channelReset_of_ready (h : s.dev.Ready) (tag : Byte) (p : List Byte) :
    exec (.channelReset tag p) s = .next { s with dev := s.dev.takeChannelReset tag p } :=
  State.onCommand_of_ready h _ _ _

/-- The records of the notice sources once some of them have been lowered. -/
def loweredNotices (srcs : List Source) (ns : Vector NoticeRecord 28) : Vector NoticeRecord 28 :=
  srcs.foldl (fun ns src => ns.set src.index ns[src.index].lower) ns

theorem loweredNotices_getElem (srcs : List Source) (ns : Vector NoticeRecord 28) (i : Fin 28) :
    (loweredNotices srcs ns)[i] = if ∃ src ∈ srcs, src.index = i then ns[i].lower else ns[i] := by
  induction srcs generalizing ns with
  | nil => simp [loweredNotices]
  | cons src srcs ih =>
    rw [loweredNotices, List.foldl_cons]
    refine (ih _).trans ?_
    by_cases hi : src.index = i
    · subst hi
      have hset : (ns.set src.index ns[src.index].lower)[src.index] = ns[src.index].lower := Vector.getElem_set_self _
      rw [hset, NoticeRecord.lower_lower, ite_self, if_pos ⟨src, List.mem_cons_self, rfl⟩]
    · have hset : (ns.set src.index ns[src.index].lower)[i] = ns[i] :=
        Vector.getElem_set_ne _ _ fun e => hi (Fin.ext e)
      rw [hset]
      exact if_congr (by simp [hi]) rfl rfl

theorem Device.foldl_lower_eq (srcs : List Source) (d : Device) :
    srcs.foldl (fun d src => d.lower src) d = { d with notices := loweredNotices srcs d.notices } := by
  induction srcs generalizing d with
  | nil => rfl
  | cons src srcs ih => exact ih (d.lower src)

/-- The blocks of a channel that is reset: its reset value, and its sources lowered. -/
theorem Device.resetBlocks_eq (c : Chan) (d : Device) : d.resetBlocks c = { d with
    chans := d.chans.set c (Channel.reset (d.chan c).gen.lastOut)
    notices := loweredNotices (channelSources c) d.notices } :=
  Device.foldl_lower_eq (channelSources c) _

theorem loweredNotices_of_mem {srcs : List Source} {src : Source} (h : src ∈ srcs) (d : Device) :
    (loweredNotices srcs d.notices)[src.index] = ⟨(d.notice src).level, none, false⟩ :=
  (loweredNotices_getElem ..).trans (if_pos ⟨src, h, rfl⟩)

theorem loweredNotices_of_not {srcs : List Source} {i : Fin 28} (h : ∀ src ∈ srcs, src.index ≠ i) (d : Device) :
    (loweredNotices srcs d.notices)[i] = d.notices[i] :=
  (loweredNotices_getElem ..).trans (if_neg fun ⟨src, hs, hi⟩ => h src hs hi)

/-- With nothing pending on a channel no operation ends. -/
theorem Device.abortOps_of_none (h : ∀ o ∈ d.ops, o.pendingOn c = false) : d.abortOps c = d := by
  rw [Device.abortOps, List.filter_eq_nil_iff.2 fun o ho => by simp [h o ho]]
  rfl

/-- The reply of an operation whose one target was aborted (R155). -/
theorem reply_of_aborted {o : Operation} (h : o.targets = [⟨c, .clear, none⟩]) :
    let o' := o.settle c .aborted none .none
    o'.complete = true ∧ o'.reply = ⟨o.tag, .aborted, o.kind.code, o'.results⟩ ∧
      (o.kind = .commit ∨ o.kind = .timing ∨ o.kind = .stop → o'.results = []) := by
  intro o'
  have htargets : o'.targets = [⟨c, .aborted, none⟩] := by
    simp only [o', Operation.settle, h, List.map_singleton, Target.settle_eq, and_self, if_true]
  have haborted : (o'.targets.any fun t => decide (t.flag = .aborted)) = true := by
    rw [htargets]
    rfl
  have hstatus : o'.status = .aborted := (Operation.aborted_iff o').2 haborted
  refine ⟨by rw [Operation.complete, htargets]; rfl, by rw [Operation.reply, hstatus]; rfl, fun hkind => ?_⟩
  have hkind' : o'.kind = o.kind := rfl
  obtain hk | hk | hk := hkind
  · rw [Operation.results_commit (hkind'.trans hk), haborted]
    cases o'.result <;> rfl
  · rw [Operation.results_timing (hkind'.trans hk), haborted]
    cases o'.result <;> rfl
  · rw [Operation.results, hkind', hk]

/-- The one operation of the table, pending on the channel alone, ends with ABORTED. -/
theorem Device.abortOps_of_single {o : Operation} (ho : d.ops = [o]) (h : o.targets = [⟨c, .clear, none⟩]) :
    d.abortOps c = ({ d with ops := [] } : Device).answer o.tag o.kind.code .aborted
      (o.settle c .aborted none .none).results := by
  have hpending : o.pendingOn c = true := by simp [Operation.pendingOn, h, Target.pendingOn]
  obtain ⟨hcomplete, hreply, -⟩ := reply_of_aborted h
  rw [Device.abortOps, ho, List.filter_cons_of_pos hpending, List.filter_nil, List.foldl_cons, List.foldl_nil,
    Device.settleOp_of_distinct (before := []) (after := []) ho (by simp), if_pos hcomplete, hreply]
  rfl

theorem Device.settleAll_log (flag : DoneFlag) (os : List Operation) (d : Device) :
    (os.foldl (fun d o => d.settleOp o.tag c flag none .none) d).dropLog = d.dropLog ∧
    (os.foldl (fun d o => d.settleOp o.tag c flag none .none) d).overflow = d.overflow := by
  induction os generalizing d with
  | nil => exact ⟨rfl, rfl⟩
  | cons o os ih =>
    obtain ⟨hlog, hover⟩ := ih (d.settleOp o.tag c flag none .none)
    exact ⟨hlog.trans (Device.settleOp_dropLog ..), hover.trans (Device.settleOp_overflow ..)⟩

/-- Settles O25: the blocks that are reset, then the operations that end. -/
theorem channelResetClearsAndAborts : Obligations.ChannelResetClearsAndAborts := by
  intro s tag c hready ht
  have hexec : exec (.channelReset tag [BitVec.ofNat 8 c.val]) s = .next { s with
      dev := (s.dev.resetChannel c).answer tag Kind.channelReset .ok [] } := by
    rw [exec_channelReset_of_ready hready, Device.takeChannelReset, Device.withChannel_of_chan,
      Device.unlessTagged_of_free ht]
  have hblocks := Device.resetBlocks_eq c s.dev
  have hlog : (s.dev.resetBlocks c).dropLog = s.dev.dropLog :=
    (congrArg Device.dropLog hblocks).trans rfl
  have hover : (s.dev.resetBlocks c).overflow = s.dev.overflow :=
    (congrArg Device.overflow hblocks).trans rfl
  have hpendingOf : ∀ {d' : Device}, (s.dev.resetBlocks c).abortOps c = d' →
      exec (.channelReset tag [BitVec.ofNat 8 c.val]) s = .next { s with dev := d'.answer tag Kind.channelReset .ok [] } := by
    rintro _ rfl
    exact hexec
  refine ⟨⟨_, hexec, (Device.answer_chan ..).trans (Device.resetChannel_chan c s.dev),
    (works_resetChannel c s.dev).keepsRest_answer .., (Device.answer_dropLog ..).trans ?_,
    (Device.answer_overflow ..).trans ?_, fun k => ?_⟩, fun hnone => ?_, fun o ho htargets => ?_, fun b hb => ?_⟩
  · exact (Device.settleAll_log ..).1.trans hlog
  · exact (Device.settleAll_log ..).2.trans hover
  · rw [Device.isPending, Device.pendingOp_congr (Device.answer_ops ..)]
    exact Device.isPending_abortOps c (s.dev.resetBlocks c) k
  · refine ⟨loweredNotices (channelSources c) s.dev.notices, fun src hsrc => loweredNotices_of_mem hsrc s.dev,
      fun i hi => loweredNotices_of_not hi s.dev, hpendingOf ?_⟩
    rw [hblocks]
    exact Device.abortOps_of_none hnone
  · obtain ⟨-, -, hresults⟩ := reply_of_aborted htargets
    refine ⟨loweredNotices (channelSources c) s.dev.notices, (o.settle c .aborted none .none).results,
      fun src hsrc => loweredNotices_of_mem hsrc s.dev, fun i hi => loweredNotices_of_not hi s.dev, hresults,
      hpendingOf ?_⟩
    rw [hblocks]
    exact Device.abortOps_of_single (d := { s.dev with
      chans := s.dev.chans.set c (Channel.reset (s.dev.chan c).gen.lastOut)
      notices := loweredNotices (channelSources c) s.dev.notices }) ho htargets
  · rw [exec_channelReset_of_ready hready, Device.takeChannelReset, Device.withChannel_of_three_lt hb]
    rfl

end Sys2Proof.Machine
end


section
/-! PROOFS. The checks on a command, in order: its own, the tag, the operation slots (R153, R163). -/

namespace Sys2Proof.Machine

variable {d : Device} {tag kind : Byte} {p : List Byte}

/-! ## What the checks leave of a command -/

/-- What is left of a command by its own checks: a refusal with the first that fails, or the tag check, and for a long
command the slots, and then its effect. -/
def Device.Taken (d : Device) (tag kind : Byte) (rs : List Byte) (long : Bool) (own : Option Status) (d' : Device) : Prop :=
  match own with
  | some st => st ≠ .ok ∧ d' = d.answer tag kind st rs
  | none => ∃ act, d' = if long then d.unlessFull tag kind act else d.unlessTagged tag kind act

section Taken

variable {rs : List Byte} {long : Bool} {d' : Device}

theorem taken_of_refusal {st : Status} (h : st ≠ .ok) : d.Taken tag kind rs long (some st) (d.answer tag kind st rs) :=
  ⟨h, rfl⟩

theorem taken_of_range : d.Taken tag kind rs long (some .range) (d.answer tag kind .range rs) := taken_of_refusal (by decide)

theorem taken_of_short (act : Device → Device) : d.Taken tag kind rs false none (d.unlessTagged tag kind act) := ⟨act, rfl⟩

theorem taken_of_long (act : Device → Device) : d.Taken tag kind rs true none (d.unlessFull tag kind act) := ⟨act, rfl⟩

/-- A test that the command's rule and its own checks make alike. -/
theorem taken_ite {P Q : Prop} [Decidable P] [Decidable Q] (hPQ : P ↔ Q) {a b : Option Status} {x y : Device}
    (hx : P → d.Taken tag kind rs long a x) (hy : ¬ P → d.Taken tag kind rs long b y) :
    d.Taken tag kind rs long (if P then a else b) (if Q then x else y) := by
  by_cases h : P
  · rw [if_pos h, if_pos (hPQ.1 h)]
    exact hx h
  · rw [if_neg h, if_neg fun hq => h (hPQ.2 hq)]
    exact hy h

/-- A check that begins with a channel number. -/
def chanCheck (n : Nat) (rest : Chan → Option Status) : Option Status := if h : n < 4 then rest ⟨n, h⟩ else some .range

/-- A channel number of a payload names a channel, or is refused RANGE. -/
theorem chanOf_cases (n : Nat) :
    (∃ c, chanOf n = some c ∧ ∀ rest, chanCheck n rest = rest c) ∨
    (chanOf n = none ∧ ∀ rest, chanCheck n rest = some .range) := by
  by_cases h : n < 4
  · exact .inl ⟨⟨n, h⟩, dif_pos h, fun rest => dif_pos h⟩
  · exact .inr ⟨dif_neg h, fun rest => dif_neg h⟩

/-- A command that names a channel in its one byte. -/
theorem taken_withChannel (hlen : p.length = 1) {own : Chan → Option Status} {act : Chan → Device → Device}
    (h : ∀ c, d.Taken tag kind [] long (own c) (act c d)) :
    d.Taken tag kind [] long (chanCheck (byteAt p 0) own) (d.withChannel tag kind p act) := by
  rw [Device.withChannel, if_neg (not_not.2 hlen)]
  obtain ⟨c, hc, hown⟩ | ⟨hc, hown⟩ := chanOf_cases (byteAt p 0)
  · rw [hc, hown]
    exact h c
  · rw [hc, hown]
    exact taken_of_range

end Taken

/-! ## Codes out of their range -/

theorem onOffOf_cases (n : Nat) :
    (∃ b, onOffOf n = some b ∧ n ≤ 1 ∧ (b = false ↔ n = 0)) ∨ (onOffOf n = none ∧ 1 < n) := by
  match n with
  | 0 => exact .inl ⟨false, rfl, by omega, by simp⟩
  | 1 => exact .inl ⟨true, rfl, by omega, by simp⟩
  | n + 2 => exact .inr ⟨rfl, by omega⟩

theorem systemOf_cases (n : Nat) : (∃ y, systemOf n = some y ∧ n ≤ 1) ∨ (systemOf n = none ∧ 1 < n) := by
  match n with
  | 0 => exact .inl ⟨_, rfl, by omega⟩
  | 1 => exact .inl ⟨_, rfl, by omega⟩
  | n + 2 => exact .inr ⟨rfl, by omega⟩

theorem polarityOf_cases (n : Nat) : (∃ y, polarityOf n = some y ∧ n ≤ 1) ∨ (polarityOf n = none ∧ 1 < n) := by
  match n with
  | 0 => exact .inl ⟨_, rfl, by omega⟩
  | 1 => exact .inl ⟨_, rfl, by omega⟩
  | n + 2 => exact .inr ⟨rfl, by omega⟩

/-! ## The commands, one by one -/

theorem taken_channelConfig (hlen : p.length = 6) : d.Taken tag Kind.channelConfig [] false
    (chanCheck (byteAt p 0) fun c => if 1 < byteAt p 1 ∨ 31 < byteAt p 2 ∨ 1 < byteAt p 5 then some .range
      else if (d.chan c).state ≠ .off ∧ (d.chan c).state ≠ .ready then some .state else none)
    (d.takeChannelConfig tag p) := by
  rw [Device.takeChannelConfig, if_neg (not_not.2 hlen)]
  obtain ⟨c, hc, hown⟩ | ⟨hc, hown⟩ := chanOf_cases (byteAt p 0)
  · rw [hown, hc]
    obtain ⟨y, hy, hy1⟩ | ⟨hy, hy1⟩ := systemOf_cases (byteAt p 1)
    · obtain ⟨b, hb, hb1, -⟩ | ⟨hb, hb1⟩ := onOffOf_cases (byteAt p 5)
      · rw [hy, hb]
        exact taken_ite ⟨fun h => by omega, fun h => .inr (.inl h)⟩ (fun _ => taken_of_range) fun _ =>
          taken_ite Iff.rfl (fun _ => taken_of_refusal (by decide)) fun _ => taken_of_short _
      · rw [hy, hb, if_pos (.inr (.inr hb1))]
        exact taken_of_range
    · rw [hy, if_pos (.inl hy1)]
      exact taken_of_range
  · rw [hown, hc]
    exact taken_of_range

theorem taken_channelStart (hlen : p.length = 1) : d.Taken tag Kind.channelStart [] false
    (chanCheck (byteAt p 0) fun c => if (d.chan c).state ≠ .ready then some .state else none) (d.takeChannelStart tag p) :=
  taken_withChannel hlen fun _ => taken_ite Iff.rfl (fun _ => taken_of_refusal (by decide)) fun _ => taken_of_short _

theorem not_takesInput_iff (ch : Channel) : (!ch.takesInput) = true ↔ ch.state ≠ .running ∧ ch.state ≠ .holding := by
  simp [Channel.takesInput]

theorem taken_channelStop (hlen : p.length = 1) : d.Taken tag Kind.channelStop [] true
    (chanCheck (byteAt p 0) fun c => if (d.chan c).state ≠ .running ∧ (d.chan c).state ≠ .holding then some .state else none)
    (d.takeChannelStop tag p) :=
  taken_withChannel hlen fun c => taken_ite (not_takesInput_iff (d.chan c)).symm (fun _ => taken_of_refusal (by decide))
    fun _ => taken_of_long _

theorem taken_channelReset (hlen : p.length = 1) : d.Taken tag Kind.channelReset [] false
    (chanCheck (byteAt p 0) fun _ => none) (d.takeChannelReset tag p) :=
  taken_withChannel hlen fun _ => taken_of_short _

theorem taken_channelStatus (hlen : p.length = 1) : d.Taken tag Kind.channelStatus [] false
    (chanCheck (byteAt p 0) fun _ => none) (d.takeChannelStatus tag p) :=
  taken_withChannel hlen fun _ => taken_of_short _

theorem taken_channelFreeze (hlen : p.length = 2) : d.Taken tag Kind.channelFreeze [] false
    (chanCheck (byteAt p 0) fun _ => if decide (1 < byteAt p 1) = true then some .range else none)
    (d.takeChannelFreeze tag p) := by
  rw [Device.takeChannelFreeze, if_neg (not_not.2 hlen)]
  obtain ⟨c, hc, hown⟩ | ⟨hc, hown⟩ := chanOf_cases (byteAt p 0)
  · rw [hown, hc]
    obtain ⟨b, hb, hb1, -⟩ | ⟨hb, hb1⟩ := onOffOf_cases (byteAt p 1)
    · rw [hb, if_neg (by simpa using hb1)]
      exact taken_of_short _
    · rw [hb, if_pos (by simpa using hb1)]
      exact taken_of_range
  · rw [hown, hc]
    exact taken_of_range

theorem taken_profileWrite (hlen : p.length = 27) : d.Taken tag Kind.profileWrite [] false
    (if (decide (byteAt p 0 = 0) || decide (31 < byteAt p 0) || (profileAt p 1).isNone) = true then some .range else none)
    (d.takeProfileWrite tag p) := by
  rw [Device.takeProfileWrite, if_neg (not_not.2 hlen)]
  by_cases hslot : byteAt p 0 = 0 ∨ 31 < byteAt p 0
  · rw [if_pos hslot, if_pos (by simp only [Bool.or_eq_true, decide_eq_true_eq]; exact .inl hslot)]
    exact taken_of_range
  · rw [if_neg hslot]
    cases hprofile : profileAt p 1 with
    | none =>
      rw [if_pos (by simp)]
      exact taken_of_range
    | some q =>
      rw [if_neg (by simpa using hslot)]
      exact taken_of_short _

theorem taken_profileRead (hlen : p.length = 1) : d.Taken tag Kind.profileRead [] false
    (if decide (31 < byteAt p 0) = true then some .range else none) (d.takeProfileRead tag p) := by
  rw [Device.takeProfileRead, if_neg (not_not.2 hlen)]
  exact taken_ite decide_eq_true_iff (fun _ => taken_of_range) fun _ => taken_of_short _

theorem taken_profileErase (hlen : p.length = 1) : d.Taken tag Kind.profileErase [] false
    (if (decide (byteAt p 0 = 0) || decide (31 < byteAt p 0)) = true then some .range else none)
    (d.takeProfileErase tag p) := by
  rw [Device.takeProfileErase, if_neg (not_not.2 hlen)]
  exact taken_ite (by simp) (fun _ => taken_of_range) fun _ => taken_of_short _

theorem taken_planStageClear (hlen : p.length = 1) : d.Taken tag Kind.planStageClear [] false
    (chanCheck (byteAt p 0) fun c => if d.isPending .commit c = true then some .busy else none)
    (d.takePlanStageClear tag p) :=
  taken_withChannel hlen fun _ => taken_ite Iff.rfl (fun _ => taken_of_refusal (by decide)) fun _ => taken_of_short _

theorem taken_planCommit (hlen : p.length = 1) : d.Taken tag Kind.planCommit [] true
    (chanCheck (byteAt p 0) fun c => if d.isPending .commit c = true then some .busy else none)
    (d.takePlanCommit tag p) :=
  taken_withChannel hlen fun _ => taken_ite Iff.rfl (fun _ => taken_of_refusal (by decide)) fun _ => taken_of_long _

/-- A check of R27 does not refuse with OK. -/
theorem stageEntry_error_ne_ok {y : System} {q : Plan} {e : EntryFields} {st : Status} (h : stageEntry y q e = .error st) :
    st ≠ .ok := by
  unfold stageEntry at h
  dsimp only at h
  rintro rfl
  split at h
  · cases h
  split at h
  · cases h
  split at h
  · cases h
  split at h
  · cases h
  split at h
  · cases h
  split at h <;> cases h

/-- What the first entry of a PLAN_STAGE_ADD decides (R28). -/
theorem stageEntries_cons (y : System) (q : Plan) (e : EntryFields) (es : List EntryFields) :
    (∀ st, stageEntry y q e = .error st → stageEntries y q 0 (e :: es) = (q, 0, st)) ∧
    (∀ q', stageEntry y q e = .ok q' → (stageEntries y q 0 (e :: es)).2.1 ≠ 0) := by
  refine ⟨fun st h => by rw [stageEntries, h], fun q' h => ?_⟩
  obtain ⟨n, plan, st, hs, -⟩ := stageEntries_prefix y q' 1 es
  rw [stageEntries, h]
  dsimp only
  rw [hs]
  change 1 + n ≠ 0
  omega

theorem entriesOf_cons (h : stageAddLength p.length = true) : ∃ es, entriesOf p = entryAt p 1 :: es := by
  obtain ⟨k, h1, h8, hk⟩ := (stageAddLength_iff _).1 h
  obtain ⟨m, hm⟩ : ∃ m, (p.length - 1) / 10 = m + 1 := ⟨k - 1, by omega⟩
  rw [entriesOf, hm, List.range_succ_eq_map]
  exact ⟨_, rfl⟩

theorem taken_planStageAdd (hlen : stageAddLength p.length = true) : d.Taken tag Kind.planStageAdd [0] false
    (chanCheck (byteAt p 0) fun c => if d.isPending .commit c = true then some .busy
      else match stageEntry (d.chan c).settings.system (d.chan c).reader.staged (entryAt p 1) with
        | .error st => some st
        | .ok _ => none) (d.takePlanStageAdd tag p) := by
  unfold Device.takePlanStageAdd
  rw [hlen, if_neg (by decide)]
  obtain ⟨c, hc, hown⟩ | ⟨hc, hown⟩ := chanOf_cases (byteAt p 0)
  · rw [hown, hc]
    refine taken_ite Iff.rfl (fun _ => taken_of_refusal (by decide)) fun _ => ?_
    obtain ⟨es, hes⟩ := entriesOf_cons hlen
    obtain ⟨hrefused, hadded⟩ :=
      stageEntries_cons (d.chan c).settings.system (d.chan c).reader.staged (entryAt p 1) es
    rw [hes]
    cases h : stageEntry (d.chan c).settings.system (d.chan c).reader.staged (entryAt p 1) with
    | error st =>
      rw [hrefused st h]
      exact taken_of_refusal (stageEntry_error_ne_ok h)
    | ok q =>
      dsimp only
      rw [if_neg (hadded q h)]
      exact taken_of_short _
  · rw [hown, hc]
    exact taken_of_range

theorem planOf_cases (r : Reader) (n : Nat) :
    (r.planOf n = some (if n = 0 then r.committed else r.staged) ∧ n ≤ 1) ∨ (r.planOf n = none ∧ 1 < n) := by
  match n with
  | 0 => exact .inl ⟨rfl, by omega⟩
  | 1 => exact .inl ⟨rfl, by omega⟩
  | n + 2 => exact .inr ⟨rfl, by omega⟩

theorem taken_planRead (hlen : p.length = 3) : d.Taken tag Kind.planRead [] false
    (chanCheck (byteAt p 0) fun c =>
      if (decide (1 < byteAt p 1) || decide ((if byteAt p 1 = 0 then (d.chan c).reader.committed
        else (d.chan c).reader.staged).entries.length < byteAt p 2)) = true then some .range else none)
    (d.takePlanRead tag p) := by
  rw [Device.takePlanRead, if_neg (not_not.2 hlen)]
  obtain ⟨c, hc, hown⟩ | ⟨hc, hown⟩ := chanOf_cases (byteAt p 0)
  · rw [hown, hc]
    dsimp only
    obtain ⟨hplan, hle⟩ | ⟨hplan, hlt⟩ := planOf_cases (d.chan c).reader (byteAt p 1)
    · rw [hplan]
      refine taken_ite ?_ (fun _ => taken_of_range) fun _ => taken_of_short _
      rw [Bool.or_eq_true, decide_eq_true_eq, decide_eq_true_eq]
      exact or_iff_right (by omega)
    · rw [hplan, if_pos (by simp [hlt])]
      exact taken_of_range
  · rw [hown, hc]
    exact taken_of_range

theorem refreshAskOf_isNone (scope argument : Nat) : (refreshAskOf scope argument).isNone =
    (decide (2 < scope) || (decide (scope = 1) && decide (31 < argument)) ||
      (decide (scope = 0) && decide (3 < argument))) := by
  match scope with
  | 0 =>
    rw [refreshAskOf, Option.isNone_map, chanOf]
    split
    · have : ¬ 3 < argument := by omega
      simp [this]
    · have : 3 < argument := by omega
      simp [this]
  | 1 =>
    rw [refreshAskOf]
    split
    · have : ¬ 31 < argument := by omega
      simp [this]
    · have : 31 < argument := by omega
      simp [this]
  | 2 => rfl
  | n + 3 =>
    have : 2 < n + 3 := by omega
    simp [refreshAskOf, this]

theorem taken_contextRefresh (hlen : p.length = 2) : d.Taken tag Kind.contextRefresh [] true
    (if (decide (2 < byteAt p 0) || (decide (byteAt p 0 = 1) && decide (31 < byteAt p 1)) ||
      (decide (byteAt p 0 = 0) && decide (3 < byteAt p 1))) = true then some .range else none)
    (d.takeContextRefresh tag p) := by
  rw [← refreshAskOf_isNone, Device.takeContextRefresh, if_neg (not_not.2 hlen)]
  cases refreshAskOf (byteAt p 0) (byteAt p 1) with
  | none => exact taken_of_range
  | some ask => exact taken_of_long _

theorem taken_timingSelect (hlen : p.length = 2) : d.Taken tag Kind.timingSelect [] true
    (chanCheck (byteAt p 0) fun _ => if decide (2 < byteAt p 1) = true then some .range else none)
    (d.takeTimingSelect tag p) := by
  rw [Device.takeTimingSelect, if_neg (not_not.2 hlen)]
  obtain ⟨c, hc, hown⟩ | ⟨hc, hown⟩ := chanOf_cases (byteAt p 0)
  · rw [hown, hc]
    by_cases h : 2 < byteAt p 1
    · rw [timingSourceOf_of_lt h, if_pos (by simpa using h)]
      exact taken_of_range
    · obtain ⟨source, hsource⟩ := timingSourceOf_of_le (Nat.not_lt.1 h)
      rw [hsource, if_neg (by simpa using h)]
      exact taken_of_long _
  · rw [hown, hc]
    exact taken_of_range

theorem taken_droplogRead (hlen : p.length = 1) : d.Taken tag Kind.droplogRead [] false
    (if decide (byteAt p 0 = 0) = true then some .range else none) (d.takeDroplogRead tag p) := by
  rw [Device.takeDroplogRead, if_neg (not_not.2 hlen)]
  exact taken_ite decide_eq_true_iff (fun _ => taken_of_range) fun _ => taken_of_short _

theorem taken_droplogWatermark (hlen : p.length = 2) : d.Taken tag Kind.droplogWatermark [] false
    (if (decide (byteAt p 0 = 0) && decide (byteAt p 1 = 0)) = true then some .range else none)
    (d.takeDroplogWatermark tag p) := by
  rw [Device.takeDroplogWatermark, if_neg (not_not.2 hlen)]
  refine taken_ite ?_ (fun _ => taken_of_range) fun _ => taken_of_short _
  rw [Bool.and_eq_true, decide_eq_true_eq, decide_eq_true_eq, wordAt, Nat.zero_add]
  omega

theorem not_pairInRange (q : Byte × Byte) :
    (!pairInRange q) = (decide (q.1.toNat = 0) || decide (28 < q.1.toNat) || decide (7 < q.2.toNat)) := by
  rw [Bool.eq_iff_iff, Bool.not_eq_true', Bool.eq_false_iff, Ne, pairInRange_iff, LevelPair]
  simp only [Bool.or_eq_true, decide_eq_true_eq]
  omega

theorem taken_noticeLevel (hlen : ∃ k, 1 ≤ k ∧ k ≤ 28 ∧ p.length = 2 * k) : d.Taken tag Kind.noticeLevel [] false
    (if ((pairsOf p).any fun q => decide (q.1.toNat = 0) || decide (28 < q.1.toNat) || decide (7 < q.2.toNat)) = true
      then some .range else none) (d.takeNoticeLevel tag p) := by
  rw [Device.takeNoticeLevel, if_neg fun h => (noticeLevelLength_iff _).1 h hlen]
  refine taken_ite ?_ (fun _ => taken_of_range) fun _ => taken_of_short _
  rw [List.not_all_eq_any_not, funext not_pairInRange]

theorem not_noticeIndex (n : Byte) :
    (!(noticeIndex n.toNat).isSome) = (decide (n.toNat = 0) || decide (28 < n.toNat)) := by
  rw [Bool.eq_iff_iff, Bool.not_eq_true', Bool.eq_false_iff, Ne, noticeIndex_isSome_iff]
  simp only [Bool.or_eq_true, decide_eq_true_eq]
  omega

theorem taken_noticeWithdraw (hlen : 1 ≤ p.length ∧ p.length ≤ 28) : d.Taken tag Kind.noticeWithdraw [] false
    (if (p.any fun n => decide (n.toNat = 0) || decide (28 < n.toNat)) = true then some .range else none)
    (d.takeNoticeWithdraw tag p) := by
  rw [Device.takeNoticeWithdraw, if_neg fun h => (noticeWithdrawLength_iff _).1 h hlen]
  refine taken_ite ?_ (fun _ => taken_of_range) fun _ => taken_of_short _
  rw [List.not_all_eq_any_not, funext not_noticeIndex]

/-! ### HISTORY_FLUSH (R102) -/

theorem not_acceptable (r : Rect) (n : Nat) : (!r.acceptable n) =
    (decide (r.x0 % 2 = 1) || decide (r.y0 % 2 = 1) || decide (r.w % 2 = 1) || decide (r.h % 2 = 1) || decide (r.w = 0) ||
      decide (r.h = 0) || decide (720 < r.x0 + r.w) || decide (n < r.y0 + r.h)) := by
  rw [Bool.eq_iff_iff, Bool.not_eq_true', Bool.eq_false_iff, Ne, acceptable_iff]
  simp only [Bool.or_eq_true, decide_eq_true_eq]
  omega

/-- The checks of a HISTORY_FLUSH on its own payload. -/
def Device.flushCheck (d : Device) (p : List Byte) : Option Status :=
  if byteAt p 0 = 2 then none
  else if byteAt p 0 = 1 ∨ 3 < byteAt p 0 then some .range
  else chanCheck (byteAt p 1) fun c =>
    if (decide (byteAt p 0 = 3) && (decide (wordAt p 2 % 2 = 1) || decide (wordAt p 4 % 2 = 1) || decide (wordAt p 6 % 2 = 1) ||
        decide (wordAt p 8 % 2 = 1) || decide (wordAt p 6 = 0) || decide (wordAt p 8 = 0) ||
        decide (720 < wordAt p 2 + wordAt p 6) ||
        decide ((d.chan c).settings.system.frameLines < wordAt p 4 + wordAt p 8))) = true then some .range else none

theorem Device.flushAsk_cases (p : List Byte) (d : Device) :
    (∃ x, d.flushAsk p = some x ∧ d.flushCheck p = none) ∨ (d.flushAsk p = none ∧ d.flushCheck p = some .range) := by
  unfold Device.flushAsk Device.flushCheck
  generalize byteAt p 0 = scope
  obtain ⟨c, hc, hown⟩ | ⟨hc, hown⟩ := chanOf_cases (byteAt p 1)
  · rw [hown, hc]
    match scope with
    | 0 => simp
    | 1 => simp
    | 2 => simp
    | 3 =>
      have hgood := not_acceptable (flushRect p) (d.chan c).settings.system.frameLines
      rw [if_neg (by decide : ¬ 3 = 2), if_neg (by decide : ¬ (3 = 1 ∨ 3 < 3))]
      by_cases h : (flushRect p).acceptable (d.chan c).settings.system.frameLines = true
      · refine .inl ⟨_, if_pos h, if_neg fun hb => ?_⟩
        exact absurd (hgood.trans (Bool.and_eq_true_iff.1 hb).2) (by rw [h]; decide)
      · refine .inr ⟨if_neg h, if_pos (Bool.and_eq_true_iff.2 ⟨rfl, hgood.symm.trans ?_⟩)⟩
        rw [Bool.eq_false_iff.2 h]
        rfl
    | n + 4 =>
      have : 3 < n + 4 := by omega
      simp [this]
  · rw [hown, hc]
    match scope with
    | 0 => simp
    | 1 => simp
    | 2 => simp
    | 3 => simp
    | n + 4 =>
      have : 3 < n + 4 := by omega
      simp [this]

theorem taken_historyFlush (hlen : p.length = 10) : d.Taken tag Kind.historyFlush [] true (d.flushCheck p)
    (d.takeHistoryFlush tag p) := by
  rw [Device.takeHistoryFlush, if_neg (not_not.2 hlen)]
  obtain ⟨x, hx, hown⟩ | ⟨hx, hown⟩ := d.flushAsk_cases p
  · rw [hx, hown]
    exact taken_of_long _
  · rw [hx, hown]
    exact taken_of_range

/-! ### CUE_CONFIG (R177) -/

theorem cueNoOf_cases (n : Nat) : (∃ k, cueNoOf n = some k ∧ n ≤ 7) ∨ (cueNoOf n = none ∧ 7 < n) := by
  unfold cueNoOf
  by_cases h : n < 8
  · exact .inl ⟨⟨n, h⟩, dif_pos h, by omega⟩
  · exact .inr ⟨dif_neg h, by omega⟩

/-- A function code beyond the last, or a parameter out of the range of its function. -/
def cueFunctionBad (k b : Nat) : Prop := 5 < k ∨ (1 ≤ k ∧ k ≤ 4 ∧ 3 < b) ∨ (k = 5 ∧ (b = 0 ∨ 7 < b))

theorem chanOf_le_cases (n : Nat) : (∃ c, chanOf n = some c ∧ n ≤ 3) ∨ (chanOf n = none ∧ 3 < n) := by
  by_cases h : n < 4
  · exact .inl ⟨⟨n, h⟩, dif_pos h, by omega⟩
  · exact .inr ⟨dif_neg h, by omega⟩

/-- The functions that name a channel. -/
theorem cueFunctionOf_chan_cases {k b : Nat} (h1 : 1 ≤ k) (h4 : k ≤ 4) {make : Chan → CueFunction}
    (h : cueFunctionOf k b = some ((chanOf b).map make)) (hneeds : ∀ c, (make c).needsInput = true ↔ k = 1 ∨ k = 2) :
    (∃ f, cueFunctionOf k b = some (some f) ∧ ¬ cueFunctionBad k b ∧ (f.needsInput = true ↔ k = 1 ∨ k = 2)) ∨
    ((∀ f, cueFunctionOf k b ≠ some (some f)) ∧ cueFunctionBad k b) := by
  unfold cueFunctionBad
  obtain ⟨c, hc, hb⟩ | ⟨hc, hb⟩ := chanOf_le_cases b
  · exact .inl ⟨make c, by rw [h, hc]; rfl, by omega, hneeds c⟩
  · exact .inr ⟨fun f => by rw [h, hc]; simp, by omega⟩

theorem cueFunctionOf_cases (k b : Nat) :
    (∃ f, cueFunctionOf k b = some (some f) ∧ ¬ cueFunctionBad k b ∧ (f.needsInput = true ↔ k = 1 ∨ k = 2)) ∨
    ((∀ f, cueFunctionOf k b ≠ some (some f)) ∧ cueFunctionBad k b) := by
  match k with
  | 0 => exact .inl ⟨.general, rfl, by simp [cueFunctionBad], by simp [CueFunction.needsInput]⟩
  | 1 => exact cueFunctionOf_chan_cases (by omega) (by omega) rfl (by simp [CueFunction.needsInput])
  | 2 => exact cueFunctionOf_chan_cases (by omega) (by omega) rfl (by simp [CueFunction.needsInput])
  | 3 => exact cueFunctionOf_chan_cases (by omega) (by omega) rfl (by simp [CueFunction.needsInput])
  | 4 => exact cueFunctionOf_chan_cases (by omega) (by omega) rfl (by simp [CueFunction.needsInput])
  | 5 =>
    unfold cueFunctionBad
    by_cases hb : 1 ≤ b ∧ b ≤ 7
    · exact .inl ⟨.attention ⟨b, by omega⟩, by rw [cueFunctionOf, dif_pos hb], by omega, by simp [CueFunction.needsInput]⟩
    · exact .inr ⟨fun f => by rw [cueFunctionOf, dif_neg hb]; simp, by omega⟩
  | k + 6 =>
    unfold cueFunctionBad
    exact .inr ⟨fun f => by simp [cueFunctionOf], by omega⟩

theorem taken_cueConfig (hlen : p.length = 5) : d.Taken tag Kind.cueConfig [] false
    (if 7 < byteAt p 0 ∨ 5 < byteAt p 1 ∨ (1 ≤ byteAt p 1 ∧ byteAt p 1 ≤ 4 ∧ 3 < byteAt p 2) ∨
        (byteAt p 1 = 5 ∧ (byteAt p 2 = 0 ∨ 7 < byteAt p 2)) ∨ 1 < byteAt p 3 ∨ 1 < byteAt p 4 then some .range
      else if (byteAt p 1 = 1 ∨ byteAt p 1 = 2) ∧ byteAt p 3 = 0 then some .needsInput else none)
    (d.takeCueConfig tag p) := by
  rw [Device.takeCueConfig, if_neg (not_not.2 hlen)]
  obtain ⟨f, hf, hgood, hneeds⟩ | ⟨hf, hbad⟩ := cueFunctionOf_cases (byteAt p 1) (byteAt p 2)
  · unfold cueFunctionBad at hgood
    obtain ⟨n, hn, hn7⟩ | ⟨hn, hn7⟩ := cueNoOf_cases (byteAt p 0)
    · obtain ⟨on, hon, hon1, honoff⟩ | ⟨hon, hon1⟩ := onOffOf_cases (byteAt p 3)
      · obtain ⟨y, hy, hy1⟩ | ⟨hy, hy1⟩ := polarityOf_cases (byteAt p 4)
        · rw [hf, hn, hon, hy, if_neg (by omega)]
          refine taken_ite ?_ (fun _ => taken_of_refusal (by decide)) fun _ => taken_of_short _
          rw [Bool.and_eq_true, Bool.not_eq_true', hneeds, honoff]
        · rw [hf, hn, hon, hy, if_pos (by omega)]
          exact taken_of_range
      · rw [hf, hn, hon, if_pos (by omega)]
        exact taken_of_range
    · rw [hf, hn, if_pos (by omega)]
      exact taken_of_range
  · unfold cueFunctionBad at hbad
    rw [if_pos (by omega)]
    split
    · exact absurd ‹_› (hf _)
    · exact taken_of_range

/-! ### The commands with no check of their own -/

theorem taken_identify (hlen : p.length = 0) : d.Taken tag Kind.identify [] false none (d.takeIdentify tag p) := by
  rw [Device.takeIdentify, if_neg (not_not.2 hlen)]
  exact taken_of_short _

theorem taken_droplogClear (hlen : p.length = 0) : d.Taken tag Kind.droplogClear [] false none (d.takeDroplogClear tag p) := by
  rw [Device.takeDroplogClear, if_neg (not_not.2 hlen)]
  exact taken_of_short _

theorem taken_noticePoll (hlen : p.length = 0) : d.Taken tag Kind.noticePoll [] false none (d.takeNoticePoll tag p) := by
  rw [Device.takeNoticePoll, if_neg (not_not.2 hlen)]
  exact taken_of_short _

theorem taken_cueRead (hlen : p.length = 0) : d.Taken tag Kind.cueRead [] false none (d.takeCueRead tag p) := by
  rw [Device.takeCueRead, if_neg (not_not.2 hlen)]
  exact taken_of_short _

theorem taken_cueSet (hlen : p.length = 2) : d.Taken tag Kind.cueSet [] false none (d.takeCueSet tag p) := by
  rw [Device.takeCueSet, if_neg (not_not.2 hlen)]
  exact taken_of_short _

/-! ## All commands -/

/-- The five long commands (R152). -/
def longKinds : List Byte := [Kind.channelStop, Kind.planCommit, Kind.contextRefresh, Kind.historyFlush, Kind.timingSelect]

/-- Every command whose kind is assigned and whose length its layout allows, DEVICE_RESET apart, is left by its own checks
as `Device.ownCheck` says. -/
theorem taken_of_allowed {f : Command} (ha : f.kind ∈ Kind.assigned) (hr : f.kind ≠ Kind.deviceReset)
    (hl : layoutAllows f.kind f.payload.length) :
    d.Taken f.tag f.kind (if f.kind = Kind.planStageAdd then [0] else []) (decide (f.kind ∈ longKinds)) (d.ownCheck f)
      (d.takeFrame f) := by
  obtain ⟨kind, tag, p⟩ := f
  simp only [Kind.assigned, List.mem_cons, List.not_mem_nil, or_false] at ha
  dsimp only at ha hr hl ⊢
  rcases ha with rfl | rfl | rfl | rfl | rfl | rfl | rfl | rfl | rfl | rfl | rfl | rfl | rfl | rfl | rfl | rfl | rfl | rfl |
    rfl | rfl | rfl | rfl | rfl | rfl | rfl | rfl | rfl
  · exact taken_identify hl
  · exact absurd rfl hr
  · exact taken_channelConfig hl
  · exact taken_channelStart hl
  · exact taken_channelStop hl
  · exact taken_channelReset hl
  · exact taken_channelStatus hl
  · exact taken_channelFreeze hl
  · exact taken_profileWrite hl
  · exact taken_profileRead hl
  · exact taken_profileErase hl
  · exact taken_planStageClear hl
  · exact taken_planStageAdd ((stageAddLength_iff _).2 hl)
  · exact taken_planCommit hl
  · exact taken_planRead hl
  · exact taken_contextRefresh hl
  · exact taken_historyFlush hl
  · exact taken_timingSelect hl
  · exact taken_droplogRead hl
  · exact taken_droplogClear hl
  · exact taken_droplogWatermark hl
  · exact taken_noticeLevel hl
  · exact taken_noticeWithdraw hl
  · exact taken_noticePoll hl
  · exact taken_cueConfig hl
  · exact taken_cueRead hl
  · exact taken_cueSet hl

/-- A command whose own checks pass is refused TAG_IN_USE where its tag is. -/
theorem Device.Taken.tagged {rs : List Byte} {long : Bool} {d' : Device} (h : d.Taken tag kind rs long none d')
    (ht : d.tagInUse tag = true) : d' = d.answer tag kind .tagInUse [] := by
  obtain ⟨act, rfl⟩ := h
  cases long
  · exact Device.unlessTagged_of_used ht kind act
  · exact if_pos ht

/-- Settles O18, by what the checks leave of each command. -/
theorem tagInUseNeverActs : Obligations.TagInUseNeverActs := by
  intro s i f hready hi hr refused long
  have hexec : ∀ {st : Status} {rs : List Byte}, s.dev.takeFrame f = s.dev.answer f.tag f.kind st rs → refused st rs :=
    fun h => by
      simp only [refused, exec_of_commandFrame hi, Device.deliver_of_ready hready, h]
  refine ⟨fun ha hl => ?_, fun ht => ?_⟩
  · have htaken := taken_of_allowed (d := s.dev) ha hr hl
    refine ⟨fun st hst => ?_, fun hown ht => ?_, fun hown ht hlong hfull => ?_⟩
    · rw [hst] at htaken
      exact hexec htaken.2
    · rw [hown] at htaken
      exact hexec (htaken.tagged ht)
    · rw [hown, show decide (f.kind ∈ longKinds) = true from decide_eq_true hlong] at htaken
      obtain ⟨act, hact⟩ := htaken
      exact hexec (hact.trans (Device.unlessFull_of_full ht hfull.ge f.kind act))
  · by_cases ha : f.kind ∈ Kind.assigned
    · by_cases hl : layoutAllows f.kind f.payload.length
      · have htaken := taken_of_allowed (d := s.dev) ha hr hl
        cases hown : s.dev.ownCheck f with
        | none =>
          rw [hown] at htaken
          exact ⟨.tagInUse, [], by decide, hexec (htaken.tagged ht)⟩
        | some st =>
          rw [hown] at htaken
          exact ⟨st, _, htaken.1, hexec htaken.2⟩
      · exact ⟨.length, [], by decide, hexec (Device.takeFrame_of_length ha hr hl)⟩
    · exact ⟨.unknown, [], by decide, hexec (Device.takeFrame_of_unassigned ha)⟩

end Sys2Proof.Machine
end


section
/-! PROOFS. The lines of a field in intake: their dropout runs, concealment and records, and the log (R10, R52 to R63). -/

namespace Sys2Proof.Machine

variable {s : State} {d : Device} {c : Chan}

/-! ## Runs (R52) -/

/-- A sample at a column is there and below the drop level. -/
def LowAt (level : Nat) (ys : List Sample) (i : Nat) : Prop := ∃ v, ys[i]? = some v ∧ v.toNat < level

/-- A maximal sequence of low samples that is long enough. -/
structure IsRun (level minLen : Nat) (ys : List Sample) (r : Span) : Prop where
  ordered : r.first ≤ r.last
  long : minLen ≤ r.last - r.first + 1
  low : ∀ i, r.first ≤ i → i ≤ r.last → LowAt level ys i
  before : ∀ i, i + 1 = r.first → ¬ LowAt level ys i
  after : ¬ LowAt level ys (r.last + 1)

/-- What the search holds at a column: the low sequence that reaches up to it, if there is one. -/
def SearchAt (level : Nat) (ys : List Sample) (col : Nat) (start : Option Nat) : Prop :=
  (∀ i, start.getD col ≤ i → i < col → LowAt level ys i) ∧ (∀ i, i + 1 = start.getD col → ¬ LowAt level ys i) ∧
    ∀ s, start = some s → s < col

section Runs

variable {level minLen col : Nat} {ys : List Sample} {start : Option Nat}

/-- The low sequence that ends before a column is the one run that begins between its start and that column. -/
theorem mem_runEnding_iff (h : SearchAt level ys col start) (hcol : ¬ LowAt level ys col) (r : Span) :
    r ∈ runEnding minLen start col ↔ IsRun level minLen ys r ∧ start.getD col ≤ r.first ∧ r.first ≤ col := by
  obtain ⟨hlow, hbefore, hstart⟩ := h
  have hne : ∀ {r : Span}, IsRun level minLen ys r → r.first ≠ col := fun hr e =>
    hcol (e ▸ hr.low _ (le_refl _) hr.ordered)
  cases start with
  | none =>
    refine iff_of_false (by simp [runEnding]) fun ⟨hr, h1, h2⟩ => hne hr ?_
    exact le_antisymm h2 h1
  | some s =>
    have hs := hstart s rfl
    simp only [Option.getD_some] at hlow hbefore ⊢
    have hrun : ∀ r : Span, IsRun level minLen ys r ∧ s ≤ r.first ∧ r.first ≤ col ↔
        minLen ≤ col - s ∧ r = ⟨s, col - 1⟩ := by
      rintro ⟨first, last⟩
      constructor
      · rintro ⟨hr, h1, h2⟩
        have hfirst : first = s := by
          by_contra hne'
          exact hr.before (first - 1) (by simp only at h1 ⊢; omega) (hlow _ (by simp only at h1; omega)
            (by simp only at h1 h2; omega))
        subst hfirst
        have hord : first ≤ last := hr.ordered
        have hlast : last = col - 1 := by
          by_contra hne'
          by_cases hlt : last < col - 1
          · exact hr.after (hlow _ (by simp only; omega) (by simp only; omega))
          · exact hcol (hr.low col (by simp only; omega) (by simp only; omega))
        subst hlast
        have hlong : minLen ≤ col - 1 - first + 1 := hr.long
        exact ⟨by omega, rfl⟩
      · rintro ⟨hlong, heq⟩
        cases heq
        refine ⟨⟨by simp only; omega, by simp only; omega, fun i h1 h2 => hlow i h1 (by simp only at h2; omega), hbefore, ?_⟩,
          le_refl _, hs.le⟩
        rw [Nat.sub_add_cancel (by omega)]
        exact hcol
    rw [hrun, runEnding]
    split
    · simp_all
    · simp_all

/-- A run that ends before a column begins with the sequence and ends there. -/
theorem mem_runEnding {r : Span} (h : r ∈ runEnding minLen start col) : start.getD col ≤ r.first ∧ r.last = col - 1 := by
  cases start with
  | none => simp [runEnding] at h
  | some s =>
    rw [runEnding] at h
    split at h
    · rw [List.mem_singleton.1 h]
      exact ⟨le_refl _, rfl⟩
    · simp at h

theorem runEnding_pairwise (minLen : Nat) (start : Option Nat) (col : Nat) :
    (runEnding minLen start col).Pairwise fun a b => a.last < b.first := by
  unfold runEnding
  split
  · split
    · exact List.pairwise_singleton ..
    · exact List.Pairwise.nil
  · exact List.Pairwise.nil

/-- What the search finds from a column on (R52). -/
theorem mem_findRuns_iff (xs : List Sample) {col : Nat} {start : Option Nat} (hxs : ys.drop col = xs)
    (h : SearchAt level ys col start) (r : Span) :
    r ∈ findRuns level minLen col start xs ↔ IsRun level minLen ys r ∧ start.getD col ≤ r.first := by
  have hfirst : ∀ {r : Span}, IsRun level minLen ys r → LowAt level ys r.first := fun hr => hr.low _ (le_refl _) hr.ordered
  induction xs generalizing col start with
  | nil =>
    have hend : ∀ i, col ≤ i → ¬ LowAt level ys i := by
      rintro i hi ⟨v, hv, -⟩
      have hlen := List.drop_eq_nil_iff.1 hxs
      rw [List.getElem?_eq_none (hlen.trans hi)] at hv
      cases hv
    rw [findRuns, mem_runEnding_iff h (hend col (le_refl _))]
    refine ⟨fun ⟨hr, h1, _⟩ => ⟨hr, h1⟩, fun ⟨hr, h1⟩ => ⟨hr, h1, ?_⟩⟩
    by_contra hlt
    exact hend r.first (by omega) (hfirst hr)
  | cons v rest ih =>
    have hv : ys[col]? = some v := by
      rw [← List.head?_drop, hxs]
      rfl
    have hrest : ys.drop (col + 1) = rest := by
      rw [← List.tail_drop, hxs]
      rfl
    obtain ⟨hlow, hbefore, hstart⟩ := h
    rw [findRuns]
    split
    · rename_i hlt
      refine ih hrest ⟨fun i h1 h2 => ?_, hbefore, fun s hs => ?_⟩
      · rcases Nat.lt_succ_iff_lt_or_eq.1 h2 with h2 | rfl
        · exact hlow i h1 h2
        · exact ⟨v, hv, hlt⟩
      · cases hs
        cases start with
        | none => simp
        | some s => exact (hstart s rfl).trans (Nat.lt_succ_self _)
    · rename_i hge
      have hcol : ¬ LowAt level ys col := by
        rintro ⟨w, hw, hlt⟩
        rw [hv] at hw
        cases hw
        exact hge hlt
      have hnext : SearchAt level ys (col + 1) none :=
        ⟨fun i h1 h2 => absurd h2 (Nat.not_lt.2 h1), fun i hi => by
          obtain rfl : i = col := Nat.succ.inj hi
          exact hcol, fun s hs => by cases hs⟩
      have hmem : r ∈ findRuns level minLen (col + 1) none rest ↔ IsRun level minLen ys r ∧ col + 1 ≤ r.first :=
        ih hrest hnext
      rw [List.mem_append, mem_runEnding_iff ⟨hlow, hbefore, hstart⟩ hcol, hmem]
      have hle : start.getD col ≤ col := by
        cases start with
        | none => exact le_refl _
        | some s => exact (hstart s rfl).le
      constructor
      · rintro (⟨hr, h1, -⟩ | ⟨hr, h1⟩)
        · exact ⟨hr, h1⟩
        · exact ⟨hr, by omega⟩
      · rintro ⟨hr, h1⟩
        by_cases h2 : r.first ≤ col
        · exact .inl ⟨hr, h1, h2⟩
        · exact .inr ⟨hr, by omega⟩

end Runs

/-- What the search finds begins with the sequence that is open at the column, or there, or later. -/
theorem le_first_of_mem_findRuns {level minLen : Nat} (xs : List Sample) {col : Nat} {start : Option Nat}
    (h : start.getD col ≤ col) {r : Span} (hr : r ∈ findRuns level minLen col start xs) : start.getD col ≤ r.first := by
  induction xs generalizing col start with
  | nil => exact (mem_runEnding hr).1
  | cons v rest ih =>
    rw [findRuns] at hr
    split at hr
    · exact ih (start := some (start.getD col)) (by simp only [Option.getD_some]; omega) hr
    · rcases List.mem_append.1 hr with hr | hr
      · exact (mem_runEnding hr).1
      · have hnext : col + 1 ≤ r.first := ih (start := none) (le_refl _) hr
        omega

/-- The runs stand in ascending order. -/
theorem findRuns_pairwise (level minLen : Nat) (xs : List Sample) {col : Nat} {start : Option Nat}
    (h : ∀ s, start = some s → s < col) :
    (findRuns level minLen col start xs).Pairwise fun a b => a.last < b.first := by
  induction xs generalizing col start with
  | nil => exact runEnding_pairwise ..
  | cons v rest ih =>
    rw [findRuns]
    split
    · refine ih fun s hs => ?_
      cases hs
      cases start with
      | none => simp
      | some s => exact (h s rfl).trans (Nat.lt_succ_self _)
    · refine List.pairwise_append.2 ⟨runEnding_pairwise .., ih (start := none) fun s hs => (Option.some_ne_none s hs.symm).elim,
        fun a ha b hb => ?_⟩
      have hlast := (mem_runEnding ha).2
      have hfirst : col + 1 ≤ b.first := le_first_of_mem_findRuns rest (start := none) (le_refl _) hb
      omega

theorem searchAt_zero (level : Nat) (ys : List Sample) : SearchAt level ys 0 none :=
  ⟨fun _ _ h => absurd h (Nat.not_lt_zero _), fun _ h => by simp at h, fun s hs => by cases hs⟩

/-! ## Records (R56, R57, R59) -/

theorem joinFirst_of_admits {l : Nat} {run : Span} {before after : List DropRecord} {r : DropRecord}
    (hb : ∀ q ∈ before, q.admits l run = false) (hr : r.admits l run = true) :
    joinFirst l run (before ++ r :: after) = some (before ++ r.join run :: after) := by
  induction before with
  | nil => exact if_pos hr
  | cons q before ih =>
    obtain ⟨hq, hb⟩ := List.forall_mem_cons.1 hb
    rw [List.cons_append, joinFirst, if_neg (by rw [hq]; decide), ih hb]
    rfl

theorem joinFirst_of_none {l : Nat} {run : Span} {records : List DropRecord}
    (h : ∀ q ∈ records, q.admits l run = false) : joinFirst l run records = none := by
  induction records with
  | nil => rfl
  | cons q records ih =>
    obtain ⟨hq, h⟩ := List.forall_mem_cons.1 h
    rw [joinFirst, if_neg (by rw [hq]; decide), ih h]
    rfl

theorem admits_iff (r : DropRecord) (l : Nat) (run : Span) : r.admits l run = true ↔
    r.lastLine + 1 = l ∧ r.span.first ≤ run.last ∧ run.first ≤ r.span.last := by
  simp [DropRecord.admits, Span.overlaps]

theorem lowAt_iff (level : Nat) (line : Line) (i : Nat) :
    LowAt level line.y.toList i ↔ ∃ h : i < 720, (line.y[(⟨i, h⟩ : Fin 720)]).toNat < level := by
  unfold LowAt
  constructor
  · rintro ⟨v, hv, hlt⟩
    obtain ⟨h, rfl⟩ := List.getElem?_eq_some_iff.1 hv
    exact ⟨by simpa using h, by simpa using hlt⟩
  · rintro ⟨h, hlt⟩
    exact ⟨line.y[i], by simp [h], hlt⟩

/-- The runs of a line are its maximal low sequences (R52). -/
theorem mem_lineRuns_iff (p : Profile) (line : Line) (r : Span) : r ∈ lineRuns p line ↔
    IsRun p.dropLevel p.dropRun line.y.toList r := by
  have := mem_findRuns_iff (minLen := p.dropRun) line.y.toList (ys := line.y.toList) rfl
    (searchAt_zero p.dropLevel line.y.toList) r
  rw [lineRuns, this]
  simp

/-- Settles O46: the runs, the records and the log in turn. -/
theorem runsAreMaximal : Obligations.RunsAreMaximal := by
  refine ⟨fun p line => ⟨fun r => ?_, ?_⟩, fun c slot l f run => ?_, fun d r => ?_⟩
  · rw [mem_lineRuns_iff]
    constructor
    · rintro ⟨hord, hlong, hlow, hbefore, hafter⟩
      simp only [lowAt_iff] at hlow hbefore hafter
      obtain ⟨hlast, -⟩ := hlow r.last hord (le_refl _)
      refine ⟨hord, hlast, hlong, fun i h1 h2 => (hlow i h1 h2).2, fun i hi => Nat.not_lt.1 fun hlt => ?_⟩
      obtain hi | hi := hi
      · exact hbefore i hi ⟨i.isLt, hlt⟩
      · exact hafter ⟨hi ▸ i.isLt, by simpa only [← hi] using hlt⟩
    · rintro ⟨hord, hlast, hlong, hlow, hedge⟩
      refine ⟨hord, hlong, fun i h1 h2 => ?_, fun i hi => ?_, ?_⟩ <;> rw [lowAt_iff]
      · exact ⟨by omega, hlow ⟨i, by omega⟩ h1 h2⟩
      · rintro ⟨h, hlt⟩
        exact absurd (hedge ⟨i, h⟩ (.inl hi)) (Nat.not_le.2 hlt)
      · rintro ⟨h, hlt⟩
        exact absurd (hedge ⟨_, h⟩ (.inr rfl)) (Nat.not_le.2 hlt)
  · exact findRuns_pairwise _ _ _ fun s hs => by cases hs
  · intro takes
    have hadmits : ∀ q : DropRecord, takes q ↔ q.admits l run = true := fun q => (admits_iff q l run).symm
    have hnot : ∀ {qs : List DropRecord}, (∀ q ∈ qs, ¬ takes q) → ∀ q ∈ qs, q.admits l run = false := fun h q hq =>
      Bool.eq_false_iff.2 fun ha => h q hq ((hadmits q).2 ha)
    refine ⟨fun before r after hopen hbefore hr => ?_, fun hnone => ⟨fun hlt => ?_, fun hge => ?_⟩, rfl, fun rest => rfl⟩
    · rw [recordRun, hopen, joinFirst_of_admits (hnot hbefore) ((hadmits r).1 hr)]
      rfl
    · rw [recordRun, joinFirst_of_none (hnot hnone)]
      exact if_pos hlt
    · rw [recordRun, joinFirst_of_none (hnot hnone)]
      exact if_neg (Nat.not_lt.2 hge)
  · intro count appended
    have hcount : appended.dropLog.length = count := by simp [appended, count]
    refine ⟨fun hlt => ⟨fun hmark => ?_, fun hmark => ?_⟩, fun hge => ⟨fun hover => ?_, fun hover => ?_⟩⟩
    · rw [Device.logRecord, if_pos (c := d.dropLog.length < Config.logDepth) hlt]
      exact (if_pos (hcount.trans hmark)).trans (by rw [hcount])
    · rw [Device.logRecord, if_pos (c := d.dropLog.length < Config.logDepth) hlt]
      exact if_neg fun e => hmark (hcount.symm.trans e)
    · rw [Device.logRecord, if_neg (c := d.dropLog.length < Config.logDepth) (Nat.not_lt.2 hge), hover]
      rfl
    · rw [Device.logRecord, if_neg (c := d.dropLog.length < Config.logDepth) (Nat.not_lt.2 hge), hover]
      dsimp only
      rw [if_pos rfl, ← hover]

end Sys2Proof.Machine
end


section
/-! PROOFS. A line of the field in intake: concealed, stored and recorded (R1, R10, R53 to R61). -/

namespace Sys2Proof.Machine

variable {s : State} {d : Device} {c : Chan}

/-! ## Concealment (R54, R55) -/

/-- A line with the luma of the spans and the chroma pairs under them those of another line, and the rest as it was. -/
def Replaced (spans : List Span) (dst src out : Line) : Prop :=
  (∀ i : Fin 720, out.y[i] =
    if spans.any (fun r => decide (r.first ≤ i.val ∧ i.val ≤ r.last)) then src.y[i] else dst.y[i]) ∧
  (∀ j : Fin 360, out.cb[j] =
    if spans.any (fun r => decide (r.first / 2 ≤ j.val ∧ j.val ≤ r.last / 2)) then src.cb[j] else dst.cb[j]) ∧
  ∀ j : Fin 360, out.cr[j] =
    if spans.any (fun r => decide (r.first / 2 ≤ j.val ∧ j.val ≤ r.last / 2)) then src.cr[j] else dst.cr[j]

theorem Replaced.nil (dst src : Line) : Replaced [] dst src dst := ⟨fun _ => rfl, fun _ => rfl, fun _ => rfl⟩

theorem ite_or_self {α : Type} (a b : Bool) (x y : α) :
    (if b then x else if a then x else y) = if a || b then x else y := by
  cases a <;> cases b <;> rfl

/-- What is replaced in a span and then in others is replaced in all of them. -/
theorem Replaced.cons {r : Span} {spans : List Span} {dst mid src out : Line} (h : Replaced [r] dst src mid)
    (hs : Replaced spans mid src out) : Replaced (r :: spans) dst src out := by
  obtain ⟨hy, hcb, hcr⟩ := h
  obtain ⟨hys, hcbs, hcrs⟩ := hs
  refine ⟨fun i => ?_, fun j => ?_, fun j => ?_⟩
  · rw [hys, hy]
    simp only [List.any_cons, List.any_nil, Bool.or_false]
    exact ite_or_self ..
  · rw [hcbs, hcb]
    simp only [List.any_cons, List.any_nil, Bool.or_false]
    exact ite_or_self ..
  · rw [hcrs, hcr]
    simp only [List.any_cons, List.any_nil, Bool.or_false]
    exact ite_or_self ..

theorem concealSpan_replaced (src dst : Line) (r : Span) : Replaced [r] dst src (concealSpan src dst r) := by
  refine ⟨fun i => ?_, fun j => ?_, fun j => ?_⟩
  · simp [concealSpan, Span.has]
  · simp [concealSpan, Span.hasPair]
  · simp [concealSpan, Span.hasPair]

theorem concealSpans_cons (src dst : Line) (r : Span) (spans : List Span) :
    concealSpans src dst (r :: spans) = concealSpans src (concealSpan src dst r) spans := List.foldl_cons ..

theorem concealSpans_replaced (src dst : Line) (spans : List Span) :
    Replaced spans dst src (concealSpans src dst spans) := by
  induction spans generalizing dst with
  | nil => exact Replaced.nil dst src
  | cons r spans ih =>
    rw [concealSpans_cons]
    exact (concealSpan_replaced src dst r).cons (ih _)

/-- Replacing a line's samples by its own changes nothing. -/
theorem Replaced.eq_self {spans : List Span} {line out : Line} (h : Replaced spans line line out) : out = line := by
  obtain ⟨hy, hcb, hcr⟩ := h
  simp only [ite_self] at hy hcb hcr
  have ey : out.y = line.y := Vector.ext fun i hi => hy ⟨i, hi⟩
  have ecb : out.cb = line.cb := Vector.ext fun j hj => hcb ⟨j, hj⟩
  have ecr : out.cr = line.cr := Vector.ext fun j hj => hcr ⟨j, hj⟩
  calc out = ⟨out.y, out.cb, out.cr⟩ := rfl
    _ = line := by rw [ey, ecb, ecr]

/-! ## Storing (R10, R54, R55) -/

/-- A line as it is stored: its runs concealed from the line they have, if they have one. -/
def storedLine (source : ConcealSource) (l : Nat) (own : List Line) (prev2 : Option Slot) (line : Line)
    (runs : List Span) : Line :=
  (concealFrom source l own prev2).elim line fun src => concealSpans src line runs

theorem storedLine_of_from {source : ConcealSource} {l : Nat} {own : List Line} {prev2 : Option Slot} {src : Line}
    (h : concealFrom source l own prev2 = some src) (line : Line) (runs : List Span) :
    storedLine source l own prev2 line runs = concealSpans src line runs := by
  rw [storedLine, h]
  rfl

theorem storedLine_of_none {source : ConcealSource} {l : Nat} {own : List Line} {prev2 : Option Slot}
    (h : concealFrom source l own prev2 = none) (line : Line) (runs : List Span) :
    storedLine source l own prev2 line runs = line := by
  rw [storedLine, h]
  rfl

/-- A line without a run is stored as it came. -/
theorem storedLine_nil (source : ConcealSource) (l : Nat) (own : List Line) (prev2 : Option Slot) (line : Line) :
    storedLine source l own prev2 line [] = line := by
  unfold storedLine
  cases concealFrom source l own prev2 <;> rfl

section Store

variable {source : ConcealSource} {l : Nat} {own : List Line} {prev2 : Option Slot} {pending : List Span} {line : Line}
  {runs : List Span}

theorem storeLine_eq : storeLine source l own prev2 pending line runs =
    if l = 1 ∧ source = .lineAbove then
      match own ++ [storedLine source l own prev2 line runs] with
      | line0 :: rest => concealSpans (storedLine source l own prev2 line runs) line0 pending :: rest
      | [] => []
    else own ++ [storedLine source l own prev2 line runs] := by
  unfold storeLine storedLine
  cases concealFrom source l own prev2 <;> rfl

/-- A line other than line 1 of a field that conceals from the line above is appended. -/
theorem storeLine_of_append (h : ¬ (l = 1 ∧ source = .lineAbove)) :
    storeLine source l own prev2 pending line runs = own ++ [storedLine source l own prev2 line runs] := by
  rw [storeLine_eq, if_neg h]

/-- Line 1 of a field that conceals from the line above fills the runs that line 0 has kept (R55). -/
theorem storeLine_of_fill (hl : l = 1) (hs : source = .lineAbove) (line0 : Line) (rest : List Line) :
    storeLine source l (line0 :: rest) prev2 pending line runs =
      concealSpans (storedLine source l (line0 :: rest) prev2 line runs) line0 pending ::
        (rest ++ [storedLine source l (line0 :: rest) prev2 line runs]) := by
  rw [storeLine_eq, if_pos ⟨hl, hs⟩]
  rfl

theorem storeLine_of_first (hl : l = 1) (hs : source = .lineAbove) :
    storeLine source l [] prev2 pending line runs = [storedLine source l [] prev2 line runs] := by
  rw [storeLine_eq, if_pos ⟨hl, hs⟩]
  exact congrArg (· :: []) (concealSpans_replaced _ _ _).eq_self

/-- A line that is stored is the last of the field's and there is one more of them. -/
theorem storeLine_length_last : (storeLine source l own prev2 pending line runs).length = own.length + 1 ∧
    (storeLine source l own prev2 pending line runs).getLast? = some (storedLine source l own prev2 line runs) := by
  by_cases h : l = 1 ∧ source = .lineAbove
  · cases own with
    | nil => simp [storeLine_of_first h.1 h.2]
    | cons line0 rest => simp [storeLine_of_fill h.1 h.2, List.getLast?_cons]
  · simp [storeLine_of_append h]

end Store

/-! ## Recording -/

/-- Recording runs keeps the field's source, its line count and whether a run has been concealed. -/
theorem recordRun_keeps (c : Chan) (slot : Slot) (l : Nat) (f : InField) (run : Span) :
    (recordRun c slot l f run).1.source = f.source ∧ (recordRun c slot l f run).1.concealed = f.concealed := by
  unfold recordRun
  split
  · exact ⟨rfl, rfl⟩
  · split <;> exact ⟨rfl, rfl⟩

theorem recordRuns_keeps (c : Chan) (slot : Slot) (l : Nat) (f : InField) (runs : List Span) :
    (recordRuns c slot l f runs).1.source = f.source ∧ (recordRuns c slot l f runs).1.concealed = f.concealed := by
  induction runs generalizing f with
  | nil => exact ⟨rfl, rfl⟩
  | cons run runs ih =>
    obtain ⟨hsource, hconcealed⟩ := recordRun_keeps c slot l f run
    exact ⟨(ih _).1.trans hsource, (ih _).2.trans hconcealed⟩

/-- The field in intake after a line whose runs have been recorded, by what held before them (R55, R58, R61). -/
theorem examined_eq {f f' : InField} (hsource : f'.source = f.source) (hconcealed : f'.concealed = f.concealed) (l : Nat)
    (runs : List Span) : f'.examined l runs =
      { f' with
        openRecords := f'.openRecords.filter fun r => decide (r.lastLine + 1 ≠ l)
        pendingLine0 := if f.source = .lineAbove ∧ l = 0 then runs else []
        concealed := f.concealed || (decide (f.source ≠ .none) && !runs.isEmpty) } := by
  rw [← hsource, ← hconcealed, InField.examined, ite_and]

/-! ## The line's arrival -/

theorem takesInput_iff (ch : Channel) : ch.takesInput = true ↔ ch.state = .running ∨ ch.state = .holding := by
  simp [Channel.takesInput]

theorem Device.lineArrives_of_idle (line : Line)
    (h : ((d.chan c).state ≠ .running ∧ (d.chan c).state ≠ .holding) ∨ (d.chan c).intake.field = none) :
    d.lineArrives c line = d := by
  unfold Device.lineArrives
  split
  · rename_i ht
    rw [takesInput_iff] at ht
    obtain ⟨hr, hh⟩ | hfield := h
    · exact (ht.elim hr hh).elim
    · unfold Device.intakeLine
      dsimp only
      rw [hfield]
  · rfl

theorem Device.lineArrives_of_beyond {f : InField} {slot : Slot} (line : Line)
    (hstate : (d.chan c).state = .running ∨ (d.chan c).state = .holding)
    (hfield : (d.chan c).intake.field = some f) (hlast : (d.chan c).intake.ring.getLast? = some slot)
    (hlines : (d.chan c).settings.system.fieldLines ≤ f.lineCount) :
    d.lineArrives c line = d.setChan c { d.chan c with
      intake := { (d.chan c).intake with field := some { f with lineCount := f.lineCount + 1 } } } := by
  rw [Device.lineArrives, if_pos ((takesInput_iff _).2 hstate), Device.intakeLine]
  dsimp only
  rw [hfield, hlast]
  exact if_pos (Nat.lt_succ_of_le hlines)

/-- A line within the field: stored, its runs recorded, BURST raised, and the records that end above it closed. -/
theorem Device.lineArrives_of_within {f : InField} {slot : Slot} (line : Line)
    (hstate : (d.chan c).state = .running ∨ (d.chan c).state = .holding)
    (hfield : (d.chan c).intake.field = some f) (hlast : (d.chan c).intake.ring.getLast? = some slot)
    (hlines : f.lineCount < (d.chan c).settings.system.fieldLines) :
    let l := f.lineCount
    let runs := lineRuns slot.context.params line
    let recorded := recordRuns c slot l { f with lineCount := l + 1 } runs
    let ls := storeLine f.source l slot.lines (secondPreviousField (d.chan c).intake.ring) f.pendingLine0 line runs
    let placed := d.setChan c { d.chan c with
      intake := { (d.chan c).intake with
        field := some (recorded.1.examined l runs)
        ring := (d.chan c).intake.ring.dropLast ++ [{ slot with lines := ls }] } }
    d.lineArrives c line = Device.logRecords (if recorded.2 then placed.raise (.burst c) (.burst slot.seq) else placed)
      (recorded.1.openRecords.filter fun r => decide (r.lastLine + 1 = l)) := by
  rw [Device.lineArrives, if_pos ((takesInput_iff _).2 hstate), Device.intakeLine]
  dsimp only
  rw [hfield, hlast]
  exact if_neg (Nat.not_lt.2 hlines)

/-- Settles O45: the arrival by the field and the line's place in it. -/
theorem lineArrivalStoresLine : Obligations.LineArrivalStoresLine := by
  intro s t c line hq ch d
  have hexec : exec (.lineArrival t c line) s = .next { s with dev := d.lineArrives c line } :=
    State.onEvent_of_works hq t c _ (works_lineArrives ..)
  have hnext : ∀ {d' : Device}, d.lineArrives c line = d' → exec (.lineArrival t c line) s = .next { s with dev := d' } :=
    fun h => hexec.trans (congrArg (fun d' => Host.Outcome.next { s with dev := d' }) h)
  refine ⟨fun hidle => hnext (Device.lineArrives_of_idle line hidle), fun f slot hstate hfield hlast =>
    ⟨fun hbeyond => hnext (Device.lineArrives_of_beyond line hstate hfield hlast hbeyond), fun hwithin => ?_⟩⟩
  intro l runs recorded records replaced
  have hrep : ∀ spans dst src, replaced spans dst src (concealSpans src dst spans) := fun spans dst src =>
    concealSpans_replaced src dst spans
  obtain ⟨hlen, hstored⟩ := storeLine_length_last (source := f.source) (l := l) (own := slot.lines)
    (prev2 := secondPreviousField ch.intake.ring) (pending := f.pendingLine0) (line := line) (runs := runs)
  refine ⟨_, _, hlen, hstored, fun happend => storeLine_of_append (by tauto), fun line0 hl habove hline0 => ?_,
    fun hkeep => ?_, fun src hsrc => ?_, ?_⟩
  · refine ⟨_, ?_, hrep f.pendingLine0 line0 _⟩
    rw [hline0]
    exact storeLine_of_fill hl habove line0 []
  · obtain hnone | hnil | ⟨habove, hzero⟩ := hkeep
    · exact storedLine_of_none (by rw [hnone]; rfl) ..
    · rw [hnil]
      exact storedLine_nil ..
    · exact storedLine_of_none (by rw [habove, concealFrom, if_pos hzero]) ..
  · have hfrom : concealFrom f.source l slot.lines (secondPreviousField ch.intake.ring) = some src := by
      obtain ⟨hprev, p, hp, hline⟩ | ⟨habove, hpos, hline⟩ := hsrc
      · rw [hprev, concealFrom, hp]
        exact hline
      · rw [habove, concealFrom, if_neg (Nat.pos_iff_ne_zero.1 hpos)]
        exact hline
    rw [storedLine_of_from hfrom]
    exact hrep runs line src
  · intro placed
    have harrives := Device.lineArrives_of_within (d := d) line hstate hfield hlast hwithin
    dsimp only at harrives
    have hkeeps := recordRuns_keeps c slot l { f with lineCount := l + 1 } runs
    rw [examined_eq (f := f) hkeeps.1 hkeeps.2] at harrives
    exact hnext harrives

end Sys2Proof.Machine
end


section
/-! PROOFS. The end of a field in intake: kept or removed (R11 to R14, R58, R60, R61, R68, R74, R87, R89). -/

namespace Sys2Proof.Machine

variable {s : State} {d : Device} {c : Chan} {ch : Channel} {f : InField} {slot : Slot}

/-- The records of the field in intake close in the order they were opened, and it is let go (R58, R60). -/
theorem Device.closeField_eq (hfield : (d.chan c).intake.field = some f) :
    d.closeField c = (f.openRecords.foldl Device.logRecord d).setChan c
      { d.chan c with intake := { (d.chan c).intake with field := none } } := by
  unfold Device.closeField
  dsimp only
  rw [hfield]
  exact Device.logRecords_setChan ..

theorem Device.removeField_eq (hfield : (d.chan c).intake.field = some f) :
    d.removeField c = (f.openRecords.foldl Device.logRecord d).setChan c
      { d.chan c with
        intake := { (d.chan c).intake with field := none, ring := (d.chan c).intake.ring.dropLast, discard := true } } := by
  rw [Device.removeField, Device.closeField_eq hfield]
  simp [Device.modChan]

/-! ## The reconstruction begun at a field end (R89) -/

/-- The view at the end of the newest field of a ring is of the field before it. -/
theorem viewAtEnd_append (before : List Slot) (newest : Slot) (cadence : Cadence) :
    viewAtEnd (before ++ [newest]) cadence = before.getLast?.map fun p =>
      ⟨before.dropLast.dropLast.getLast?, before.dropLast.getLast?, p, some newest, some cadence⟩ := by
  simp [viewAtEnd, previousField, secondPreviousField]

/-- A reconstruction is begun unless the field's has been, and what that makes of the reconstructor. -/
theorem Channel.beginRecon_eq (ch : Channel) (now : Ticks) (p : Option Slot) (view : Slot → View)
    (hview : ∀ p, (view p).field = p) :
    ch.beginRecon now (p.map view) = { ch with
      recon := match p.filter fun p => decide (ch.recon.lastBegun ≠ some p.seq) with
        | none => ch.recon
        | some p =>
          { ch.recon with
            jobs := ch.recon.jobs ++ [view p]
            workStart := if ch.recon.jobs = [] then now else ch.recon.workStart
            lastBegun := some p.seq } } := by
  unfold Channel.beginRecon notBegun
  cases p with
  | none => rfl
  | some p =>
    by_cases hb : ch.recon.lastBegun = some p.seq
    · simp [Option.filter, hview, hb]
    · simp [Option.filter, hview, hb, Reconstructor.begin, List.isEmpty_iff]

/-! ## The field kept (R11, R12) -/

theorem Device.foldl_logRecord_now (rs : List DropRecord) (d : Device) : (rs.foldl Device.logRecord d).now = d.now :=
  (works_logRecords 0 rs d).keepsRest.now

/-- What a field end that keeps its field makes of the channel: its blocks, and CADENCE where the tracker's step changes
the state's name. -/
theorem Device.keepField_eq {kept : Slot} {stepped : Tracker × CadenceReason} (hfield : (d.chan c).intake.field = some f)
    (hkept : finishSlot (d.chan c).settings.system.fieldLines f.lineCount slot = kept)
    (hstepped : (d.chan c).tracker.step kept
      (fieldSignature (d.chan c).settings.system ((d.chan c).intake.ring.dropLast ++ [kept]) kept) = stepped) :
    d.keepField c f slot =
      (((f.openRecords.foldl Device.logRecord d).setChan c
        ({ d.chan c with
          intake := { (d.chan c).intake with
            field := none
            ring := (d.chan c).intake.ring.dropLast ++ [kept]
            accepted := (d.chan c).intake.accepted + 1 }
          dropState := f.concealed
          tracker := stepped.1 }.beginRecon d.now
            (viewAtEnd ((d.chan c).intake.ring.dropLast ++ [kept]) stepped.1.cadence))).cadenceTold c
        (d.chan c).tracker stepped.1 stepped.2) := by
  subst hkept hstepped
  unfold Device.keepField
  dsimp only
  rw [Device.closeField_eq hfield]
  simp only [Device.chan_setChan_self, Device.setChan_setChan, Device.setTracker_eq, Device.modChan,
    Device.cadenceTold_setChan]
  have hnow : ∀ t r x, (((f.openRecords.foldl Device.logRecord d).cadenceTold c (d.chan c).tracker t r).setChan c x).now =
      d.now := fun t r x => (works_cadenceTold ..).keepsRest.now.trans (Device.foldl_logRecord_now ..)
  simp only [hnow, Channel.beginRecon]
  split <;> rfl

theorem keptCount_iff (n k : Nat) : keptCount n k = true ↔ n ≤ k + 2 ∧ k ≤ n + 2 := by simp [keptCount]

/-- The field end of a field within two lines of the standard count keeps it; of any other removes it (R11). -/
theorem Device.fieldEnds_of_field (hstate : (d.chan c).state = .running ∨ (d.chan c).state = .holding)
    (hfield : (d.chan c).intake.field = some f) (hlast : (d.chan c).intake.ring.getLast? = some slot) :
    d.fieldEnds (.latest c) =
      if keptCount (d.chan c).settings.system.fieldLines f.lineCount then d.keepField c f slot else d.removeField c := by
  refine (if_pos ((takesInput_iff _).2 hstate)).trans ?_
  unfold Device.endField
  dsimp only
  rw [hfield, hlast]

theorem Device.fieldEnds_of_idle
    (h : ((d.chan c).state ≠ .running ∧ (d.chan c).state ≠ .holding) ∨ (d.chan c).intake.field = none) :
    d.fieldEnds (.latest c) = d := by
  obtain ⟨hr, hh⟩ | hfield := h
  · exact if_neg fun ht => ((takesInput_iff _).1 ht).elim hr hh
  · refine (ite_congr rfl (fun _ => ?_) fun _ => rfl).trans (ite_self d)
    unfold Device.endField
    dsimp only
    rw [hfield]

/-- The padding of a field that is kept: copies of its last line (R11). -/
theorem padLines_eq (n : Nat) (lines : List Line) :
    padLines n lines = lines ++ (lines.getLast?.elim [] fun last => List.replicate (n - lines.length) last) := by
  unfold padLines
  cases lines.getLast? with
  | none => exact (List.append_nil _).symm
  | some last => rfl

/-- Settles O47: the field end by the field in intake and its line count. -/
theorem fieldEndKeepsOrRemoves : Obligations.FieldEndKeepsOrRemoves := by
  intro s t c hq ch d
  have hexec : exec (.fieldEnd t (.latest c)) s = .next { s with dev := d.fieldEnds (.latest c) } :=
    State.onEvent_of_works hq t c _ (works_fieldEnds ..)
  have hnext : ∀ {d' : Device}, d.fieldEnds (.latest c) = d' →
      exec (.fieldEnd t (.latest c)) s = .next { s with dev := d' } :=
    fun h => hexec.trans (congrArg (fun d' => Host.Outcome.next { s with dev := d' }) h)
  refine ⟨State.onEvent_of_works hq t c (Device.fieldEnds (.cutOff c)) (Works.refl c _), fun hidle =>
    hnext (Device.fieldEnds_of_idle hidle), fun f slot hstate hfield hlast => ?_⟩
  have hends := Device.fieldEnds_of_field (d := d) hstate hfield hlast
  intro y n before closed
  refine ⟨fun hlow hhigh => ?_, fun hbad => ?_⟩
  · intro slot' stepped begun kept
    have hslot : finishSlot n f.lineCount slot = slot' := by
      unfold finishSlot
      rw [padLines_eq]
      cases h : slot.lines.getLast? <;> simp only [slot', h] <;> rfl
    have hbegun := Channel.beginRecon_eq { ch with
      intake := { ch.intake with field := none, ring := before ++ [slot'], accepted := ch.intake.accepted + 1 }
      dropState := f.concealed
      tracker := stepped.1 } d.now before.getLast?
      (fun p => ⟨before.dropLast.dropLast.getLast?, before.dropLast.getLast?, p, some slot', some stepped.1.cadence⟩)
      fun _ => rfl
    rw [← viewAtEnd_append] at hbegun
    refine hnext ((hends.trans (if_pos ((keptCount_iff ..).2 ⟨hlow, hhigh⟩))).trans
      ((Device.keepField_eq (d := d) hfield hslot rfl).trans ?_))
    exact congrArg (fun x => (closed.setChan c x).cadenceTold c ch.tracker stepped.1 stepped.2) hbegun
  · have hnot : ¬ keptCount n f.lineCount = true := by
      rw [keptCount_iff]
      omega
    exact hnext ((hends.trans (if_neg hnot)).trans (Device.removeField_eq hfield))

end Sys2Proof.Machine
end


section
/-! PROOFS. The loss of input (R15, R16, R34, R49, R105, R155). -/

namespace Sys2Proof.Machine

variable {s : State} {d : Device} {c : Chan} {ch : Channel}

/-! ## The settling of a channel that has been cleared -/

/-- A channel whose ring is stale and whose tracker is clear, so that clearing them again changes nothing. -/
structure Channel.Cleared (ch : Channel) : Prop where
  ring : ∀ f ∈ ch.intake.ring, f.stale = true
  tracker : ch.tracker.cleared = ch.tracker

theorem Tracker.cleared_cleared (t : Tracker) : t.cleared.cleared = t.cleared := by
  unfold Tracker.cleared
  cases t.cadence <;> rfl

/-- A clear tracker told of a change of mode is clear. -/
theorem Tracker.told_cleared {t : Tracker} (h : t.cleared = t) (a b : Option Context) :
    (t.told a b none).cleared = t.told a b none := by
  unfold Tracker.told
  split
  · split
    · exact h
    · obtain ⟨x, hist, n⟩ := t
      obtain ⟨-, rfl, rfl⟩ := Tracker.mk.inj h
      rename_i b _
      cases b.params.mode <;> rfl
  · exact h

/-- A flush changes the window memory alone of a channel that has been cleared. -/
theorem Channel.Cleared.flushed (h : ch.Cleared) (asked : FlushScope) : ∃ window, ch.flushed asked =
    { ch with recon := { ch.recon with windowMemory := window } } := by
  unfold Channel.flushed
  split
  · exact ⟨_, rfl⟩
  · refine ⟨none, ?_⟩
    have hring : ch.intake.ring.map (fun f => { f with stale := true }) = ch.intake.ring :=
      (List.map_congr_left fun f hf => by rw [← h.ring f hf]; rfl).trans (List.map_id _)
    rw [hring, h.tracker]

/-- Where no flush is pending there is none to perform. -/
theorem Device.flushPending_eq_none (h : d.isPending .flush c = false) : d.flushPending c = none := by
  rw [Device.flushPending, Option.not_isSome_iff_eq_none.1 (Bool.eq_false_iff.1 h)]

/-- What the settling of pending work leaves of a channel that has been cleared. -/
theorem Device.leaveRunning_chan_of_cleared (h : (d.chan c).Cleared) : ∃ reader context window cadence,
    (d.leaveRunning c).chan c = { d.chan c with
      reader := reader
      context := context
      tracker := ⟨cadence, [], 0⟩
      recon := { (d.chan c).recon with windowMemory := window } } ∧
    (d.isPending .commit c = false → reader = (d.chan c).reader) ∧
    (d.isPending .flush c = false → window = (d.chan c).recon.windowMemory) ∧
    (d.isPending .refresh c = false → context = (d.chan c).context ∧ cadence = (d.chan c).tracker.cadence) := by
  let reader := if d.isPending .commit c then (d.chan c).reader.swap else (d.chan c).reader
  have hcommit : (d.settleCommit c).chan c = { d.chan c with reader := reader } := Device.settleCommit_chan c d
  have hkeeps : ∀ k, d.isPending k c = false → (d.settleCommit c).isPending k c = false := fun k hk => by
    rw [Device.settleCommit_eq, Device.endsPending]
    split
    · exact Device.isPending_settleOp_of_false (flag := .done) (d := d.setChan c _) hk _ _ (by decide) _ _
    · exact hk
  obtain ⟨context, hrefresh, hcontext⟩ : ∃ context,
      ((d.settleCommit c).settleRefresh c).chan c = { d.chan c with
        reader := reader, context := context, tracker := (d.chan c).tracker.told (d.chan c).context context none } ∧
      (d.isPending .refresh c = false → context = (d.chan c).context) := by
    have h2 := Device.settleRefresh_chan c (d.settleCommit c)
    rw [hcommit] at h2
    exact ⟨_, h2, fun hk => if_neg (by rw [hkeeps _ hk]; decide)⟩
  let told := (d.chan c).tracker.told (d.chan c).context context none
  let refreshed := { d.chan c with reader := reader, context := context, tracker := told }
  have htold : told.cleared = told := Tracker.told_cleared h.tracker ..
  have hrefreshed : refreshed.Cleared := ⟨h.ring, htold⟩
  obtain ⟨window, hflush, hwindow⟩ : ∃ window, (d.leaveRunning c).chan c =
        { refreshed with recon := { refreshed.recon with windowMemory := window } } ∧
      (d.isPending .flush c = false → window = (d.chan c).recon.windowMemory) := by
    have h3 := Device.settleFlush_chan c ((d.settleCommit c).settleRefresh c)
    rw [hrefresh] at h3
    cases hp : ((d.settleCommit c).settleRefresh c).flushPending c with
    | none =>
      rw [hp] at h3
      exact ⟨_, h3, fun _ => rfl⟩
    | some asked =>
      rw [hp] at h3
      obtain ⟨window, hw⟩ := hrefreshed.flushed asked
      refine ⟨window, h3.trans hw, fun hk => ?_⟩
      rw [Device.flushPending_eq_none (Device.isPending_settleRefresh_of_false (hkeeps _ hk))] at hp
      cases hp
  refine ⟨reader, context, window, told.cadence, ?_, fun hk => if_neg (by rw [hk]; decide), hwindow, fun hk => ⟨hcontext hk, ?_⟩⟩
  · have htracker : told = ⟨told.cadence, [], 0⟩ := by
      rw [← htold]
      rfl
    exact hflush.trans (congrArg (fun x => { refreshed with
      tracker := x, recon := { refreshed.recon with windowMemory := window } }) htracker)
  · exact congrArg Tracker.cadence ((congrArg (fun x => (d.chan c).tracker.told (d.chan c).context x none)
      (hcontext hk)).trans (Tracker.told_self ..))

/-! ## The loss -/

theorem Channel.lost_cleared (ch : Channel) (now : Ticks) (input : InputCond) : (ch.lost now input).Cleared := by
  refine ⟨fun f hf => ?_, ?_⟩
  · obtain ⟨p, -, rfl⟩ := Option.map_eq_some_iff.1 (Option.mem_toList.1 hf)
    rfl
  · have htracker : (ch.lost now input).tracker = ch.tracker.cleared := (Tracker.cleared_eq _).symm
    rw [htracker, Tracker.cleared_cleared]

theorem Channel.lost_windowMemory (ch : Channel) (now : Ticks) (input : InputCond) :
    (ch.lost now input).recon.windowMemory = ch.recon.windowMemory := by
  unfold Channel.lost
  dsimp only
  split <;> rfl

/-- The loss up to the settling leaves the channel that `Channel.lost` says, and the operations as they were. -/
theorem Device.lossUnsettled_chan (c : Chan) (why : LossReason) (d : Device) :
    (d.lossUnsettled c why).chan c = (d.chan c).lost d.now why.condition := by
  have hX := Channel.lost_eq (d.chan c) d.now why
  have hT : (({ d.chan c with
      intake := { (d.chan c).intake with field := none, ring := (d.chan c).intake.keptRing } } : Channel).rebuildAtLoss
        d.now).tracker = (d.chan c).tracker := by
    unfold Channel.rebuildAtLoss
    split <;> rfl
  simp only [Device.lossUnsettled, Device.raise_chan, Device.chan_modChan_self, Device.setTracker_chan, Device.dropField_chan,
    hT]
  exact hX.symm

theorem Device.lossUnsettled_ops (c : Chan) (why : LossReason) (d : Device) : (d.lossUnsettled c why).ops = d.ops := by
  simp [Device.lossUnsettled]

theorem Device.declareLoss_logged (c : Chan) (why : LossReason) (d : Device) :
    d.Logged (d.chan c).intake.openRecords (d.declareLoss c why) := by
  obtain ⟨hlog, hover⟩ := Device.leaveRunning_log c (d.lossUnsettled c why)
  obtain ⟨hdlog, hdover⟩ := d.dropField_logged c
  refine ⟨hlog.trans (Eq.trans ?_ hdlog), hover.trans (Eq.trans ?_ hdover)⟩ <;> simp [Device.lossUnsettled]

/-- A loss settles the commit, the refresh and the flush pending on the channel (R155). -/
theorem Device.isPending_declareLoss (h : d.OpsFit) (why : LossReason) {k : OpName}
    (hk : k = .commit ∨ k = .refresh ∨ k = .flush) : (d.declareLoss c why).isPending k c = false := by
  obtain ⟨hdistinct, hfits⟩ := h
  have hops := Device.lossUnsettled_ops c why d
  refine Device.isPending_leaveRunning (d := d.lossUnsettled c why) ?_ (fun k' => ?_) hk
  · rw [hops]
    exact hdistinct.1
  · rw [Device.pendingOps, hops]
    exact (hfits k' c).1

/-- What a loss leaves of its channel: that of `Channel.lost`, but for the blocks that what was pending has changed. -/
theorem Device.declareLoss_chan (c : Chan) (why : LossReason) (d : Device) :
    ∃ reader context window cadence, (d.declareLoss c why).chan c = { (d.chan c).lost d.now why.condition with
      reader := reader
      context := context
      tracker := ⟨cadence, [], 0⟩
      recon := { ((d.chan c).lost d.now why.condition).recon with windowMemory := window } } ∧
    (d.isPending .commit c = false → reader = (d.chan c).reader) ∧
    (d.isPending .flush c = false → window = (d.chan c).recon.windowMemory) ∧
    (d.isPending .refresh c = false →
      context = (d.chan c).context ∧ cadence = ((d.chan c).lost d.now why.condition).tracker.cadence) := by
  have hchan := Device.lossUnsettled_chan c why d
  have hpending : ∀ k, (d.lossUnsettled c why).isPending k c = d.isPending k c := fun k =>
    congrArg Option.isSome (Device.pendingOp_congr (Device.lossUnsettled_ops c why d) k c)
  obtain ⟨reader, context, window, cadence, hblocks, hreader, hwindow, hcontext⟩ :=
    Device.leaveRunning_chan_of_cleared (hchan ▸ Channel.lost_cleared ..)
  rw [hpending, hchan] at hreader hwindow hcontext
  rw [hchan, ← Device.declareLoss_eq_leaveRunning] at hblocks
  exact ⟨reader, context, window, cadence, hblocks, hreader, fun h => (hwindow h).trans (Channel.lost_windowMemory ..),
    hcontext⟩

theorem Device.declareLoss_chan_settled (h : (d.ops.map (·.tag)).Nodup) (why : LossReason) :
    (d.declareLoss c why).chan c = ((d.chan c).lost d.now why.condition).settled d c := by
  have hops := Device.lossUnsettled_ops c why d
  rw [Device.declareLoss_eq_leaveRunning, Device.leaveRunning_chan (hops.symm ▸ h), Device.lossUnsettled_chan]
  exact Channel.settled_congr (evolves_lossUnsettled c why d).works.keepsRest.profiles
    (fun k _ => Device.pendingOp_congr hops k c) _

/-! ## The field timeout (R15) -/

theorem due_fieldTimeout_iff (d : Device) (c : Chan) : d.due (.fieldTimeout c) = true ↔
    (d.chan c).state = .running ∧ ∃ deadline, (d.chan c).intake.timeout = some deadline ∧ deadline ≤ d.now := by
  simp [Device.due, Device.passed, Option.any_eq_true]

/-- Settles O48: the loss by the blocks it leaves, the records, and what was pending. -/
theorem timeoutDeclaresLoss : Obligations.TimeoutDeclaresLoss := by
  intro s t c hq ch d lost
  refine ⟨fun hidle => ?_, fun deadline hrun htimeout hpast => ?_⟩
  · have hdue : d.due (.fieldTimeout c) = false := Bool.eq_false_iff.2 fun hd => by
      obtain ⟨hrun, deadline, htimeout, hpast⟩ := (due_fieldTimeout_iff d c).1 hd
      exact hidle.elim (fun h => h hrun) fun h => Nat.not_lt.2 hpast (h deadline htimeout)
    have hexpire : d.expire (.fieldTimeout c) = d := Device.expire_of_not_due hdue
    have hevent := State.onEvent_of_works hq t c (Device.expire (.fieldTimeout c)) (hexpire ▸ Works.refl c d)
    exact hevent.trans (congrArg (fun d' => Host.Outcome.next { s with dev := d' }) hexpire)
  · have hdue : d.due (.fieldTimeout c) = true := (due_fieldTimeout_iff d c).2 ⟨hrun, deadline, htimeout, hpast⟩
    have hexpire : d.expire (.fieldTimeout c) = d.declareLoss c .absent :=
      (Device.expire_of_due hdue).trans (if_pos ⟨hrun, by rw [Option.isSome_iff_exists]; exact ⟨_, htimeout⟩⟩)
    have hworks := works_declareLoss c .absent d
    have hevent := State.onEvent_of_works hq t c (Device.expire (.fieldTimeout c)) (hexpire ▸ hworks)
    obtain ⟨reader, context, window, cadence, hblocks, hreader, hwindow, hcontext⟩ := Device.declareLoss_chan c .absent d
    refine ⟨{ s with dev := d.declareLoss c .absent }, reader, context, window, cadence,
      hevent.trans (congrArg (fun d' => Host.Outcome.next { s with dev := d' }) hexpire), ?_⟩
    dsimp only
    refine ⟨hworks.keepsRest, Device.declareLoss_logged c .absent d, hblocks, hreader, hwindow, hcontext, fun hdistinct => ?_,
      fun hfit k hk => Device.isPending_declareLoss (d := d) hfit .absent hk⟩
    have hsettled : (d.declareLoss c .absent).chan c = lost.settled s.dev c :=
      (Device.declareLoss_chan_settled (d := d) hdistinct.1 .absent).trans
        (Channel.settled_congr rfl (fun _ _ => rfl) lost)
    have hloss : d.declareLoss c .absent = lost.settling s.dev c
        ((((ch.intake.openRecords.foldl Device.logRecord d).setChan c (lost.settled s.dev c)).cadenceTold c ch.tracker
          lost.tracker .loss).raise (.input c) (.input .holding .absent)) :=
      Device.declareLoss_eq (d := d) hdistinct.1 c .absent
    exact ⟨hsettled, hloss⟩

end Sys2Proof.Machine
end


section
/-! PROOFS. The field starts that take no field in (R1, R5, R14, R16). -/

namespace Sys2Proof.Machine

variable {s : State} {d : Device} {c : Chan} {label : Label}

/-! ## The implied end of the field in intake (R14) -/

theorem Device.endField_of_none (h : (d.chan c).intake.field = none) : d.endField c = d := by
  unfold Device.endField
  dsimp only
  rw [h]

/-- A field end leaves no field in intake where it does anything. -/
theorem Device.endField_field (c : Chan) (d : Device) :
    d.endField c = d ∨ ((d.endField c).chan c).intake.field = none := by
  unfold Device.endField
  dsimp only
  cases hfield : (d.chan c).intake.field with
  | none => exact .inl rfl
  | some f =>
    cases (d.chan c).intake.ring.getLast? with
    | none => exact .inl rfl
    | some slot =>
      refine .inr ?_
      dsimp only
      split
      · rw [Device.keepField_eq hfield rfl rfl, Device.cadenceTold_chan, Device.chan_setChan_self, Channel.beginRecon_intake]
      · rw [Device.removeField_eq hfield, Device.chan_setChan_self]

/-- A second field end after the first does nothing. -/
theorem Device.endField_endField (c : Chan) (d : Device) : (d.endField c).endField c = d.endField c := by
  obtain h | h := Device.endField_field c d
  · rw [h, h]
  · exact Device.endField_of_none h

/-- A loss leaves the channel HOLDING, with the input condition of its reason, and with no field in intake. -/
theorem Device.declareLoss_intake (c : Chan) (why : LossReason) (d : Device) :
    ((d.declareLoss c why).chan c).state = .holding ∧
    ((d.declareLoss c why).chan c).intake.input = why.condition ∧
    ((d.declareLoss c why).chan c).intake.timeout = none ∧
    ((d.declareLoss c why).chan c).intake.field = none ∧
    ((d.declareLoss c why).chan c).intake.nextSeq = (d.chan c).intake.nextSeq := by
  obtain ⟨reader, context, window, cadence, hblocks, -⟩ := Device.declareLoss_chan c why d
  rw [hblocks]
  exact ⟨rfl, rfl, rfl, rfl, rfl⟩

/-! ## A field start by the channel's state -/

theorem Device.fieldStart_of_running (label : Label) (h : (d.chan c).state = .running) : d.fieldStart c label =
    if label.system = ((d.endField c).chan c).settings.system then (d.endField c).takeIn c label
    else (d.endField c).declareLoss c .wrongStandard := by
  unfold Device.fieldStart
  rw [h]

theorem Device.fieldStart_of_holding (label : Label) (h : (d.chan c).state = .holding) : d.fieldStart c label =
    if label.system = (d.chan c).settings.system then (d.endHolding c).takeIn c label else d.wrongWhileHolding c := by
  unfold Device.fieldStart
  rw [h]

theorem Device.fieldStart_of_idle (label : Label) (hr : (d.chan c).state ≠ .running) (hh : (d.chan c).state ≠ .holding) :
    d.fieldStart c label = d := by
  unfold Device.fieldStart
  cases h : (d.chan c).state with
  | running => exact absurd h hr
  | holding => exact absurd h hh
  | off => rfl
  | ready => rfl
  | stopping => rfl

/-- On a RUNNING channel a field start does what it does after the end of the field in intake. -/
theorem Device.fieldStart_endField (label : Label) (h : (d.chan c).state = .running) :
    (d.endField c).fieldStart c label = d.fieldStart c label := by
  have hstate : ((d.endField c).chan c).state = .running := (calm_endField c d).state.trans h
  rw [Device.fieldStart_of_running label hstate, Device.fieldStart_of_running label h, Device.endField_endField]

theorem exec_fieldStart (h : s.dev.Quiet) (t : Ticks) (c : Chan) (label : Label) :
    exec (.fieldStart t c label) s = .next { s with dev := (s.dev.arrive t).fieldStart c label } :=
  State.onEvent_of_works h t c _ (works_fieldStart ..)

/-- Settles O43, by the channel's state. -/
theorem fieldStartNotTakenIn : Obligations.FieldStartNotTakenIn := by
  intro s t c label hq ch d
  have hnext : ∀ {d' : Device}, d.fieldStart c label = d' →
      exec (.fieldStart t c label) s = .next { s with dev := d' } :=
    fun h => (exec_fieldStart hq t c label).trans (congrArg (fun d' => Host.Outcome.next { s with dev := d' }) h)
  refine ⟨fun hr hh => hnext (Device.fieldStart_of_idle (d := d) label hr hh), fun hrun => ?_, fun hrun hfield hwrong => ?_,
    fun hhold hwrong => ?_⟩
  · let v : State := { s with dev := d.endField c }
    have hworks := works_endField c d
    have hend : exec (.fieldEnd t (.latest c)) s = .next v :=
      (State.onEvent_of_works hq t c (Device.fieldEnds (.latest c)) (works_fieldEnds ..)).trans
        (congrArg (fun d' => Host.Outcome.next { s with dev := d' }) (if_pos ((takesInput_iff _).2 (.inl hrun))))
    have hquiet : v.dev.Quiet := by
      obtain ⟨hphase, hfifo⟩ := hq
      exact ⟨fun e => hphase (hworks.keepsRest.phase.symm.trans e), hworks.keepsRest.fifo.trans hfifo⟩
    have harrive : v.dev.arrive t = v.dev := Device.arrive_eq_self (hworks.keepsRest.now ▸ le_max_right _ _)
    refine ⟨v, hend, (hnext (Device.fieldStart_endField (d := d) label hrun).symm).trans ?_⟩
    rw [exec_fieldStart hquiet, harrive]
  · have hstart : d.fieldStart c label = d.declareLoss c .wrongStandard := by
      rw [Device.fieldStart_of_running (d := d) label hrun, Device.endField_of_none (d := d) hfield]
      exact if_neg hwrong
    have hopen : ch.intake.openRecords = [] := by rw [Intake.openRecords, hfield]; rfl
    obtain ⟨hlog, hover⟩ := Device.declareLoss_logged c .wrongStandard d
    obtain ⟨hstate, hinput, htimeout, hnone, hseq⟩ := Device.declareLoss_intake c .wrongStandard d
    have hopen' : (d.chan c).intake.openRecords = [] := hopen
    rw [hopen'] at hlog hover
    rw [List.take_nil, List.append_nil] at hlog
    have hover' : (d.declareLoss c .wrongStandard).overflow = d.overflow := by simpa using hover
    refine ⟨{ s with dev := d.declareLoss c .wrongStandard }, hnext hstart, ?_⟩
    dsimp only
    refine ⟨(works_declareLoss c .wrongStandard d).keepsRest, hlog, hover', hstate, hinput, htimeout, hnone, hseq, fun hdistinct => ?_, fun hfit k hk =>
        Device.isPending_declareLoss (d := d) hfit .wrongStandard hk⟩
    let lost := ch.lost d.now .wrongStandard
    have hsettled : (d.declareLoss c .wrongStandard).chan c = lost.settled s.dev c :=
      (Device.declareLoss_chan_settled (d := d) hdistinct.1 .wrongStandard).trans
        (Channel.settled_congr rfl (fun _ _ => rfl) lost)
    have hloss := Device.declareLoss_eq (d := d) hdistinct.1 c .wrongStandard
    dsimp only at hloss
    rw [hopen'] at hloss
    exact ⟨hsettled, hloss⟩
  · refine hnext ?_
    rw [Device.fieldStart_of_holding (d := d) label hhold]
    exact if_neg hwrong

end Sys2Proof.Machine
end


section
/-! PROOFS. A completed reconstruction and its frame (R90, R91, R107, R134). -/

namespace Sys2Proof.Machine

variable {s : State} {d : Device} {c : Chan}

theorem View.releases_eq (v : View) :
    v.releases = if v.cadence.isSome then v.prev2.map (·.seq) else some v.field.seq := by
  unfold View.releases
  cases v.cadence <;> rfl

/-- Whether a frame that joins the queue counts a drop: the queue is full, and the channel is not RUNNING and frozen. -/
def Channel.countsDrop (ch : Channel) (frozen : Bool) : Bool :=
  decide (2 ≤ ch.sync.queue.length) && !(decide (ch.state = .running) && frozen)

/-- A channel whose queue a frame has joined (R134). -/
def Channel.withPicture (ch : Channel) (p : Picture) (counted : Bool) : Channel :=
  { ch with
    sync :=
      { ch.sync with
        queue := (if decide (2 ≤ ch.sync.queue.length) then ch.sync.queue.tail else ch.sync.queue) ++ [p]
        awaited := false
        drops := if counted then min 65535 (ch.sync.drops + 1) else ch.sync.drops } }

/-- A frame that joins the queue, with SLIP where a drop is counted. -/
theorem Device.appendPicture_setChan (c : Chan) (p : Picture) (d : Device) (ch : Channel) :
    (d.setChan c ch).appendPicture c p =
      let counted := ch.countsDrop (ch.sync.freeze || d.cueFreeze c)
      let d' := d.setChan c (ch.withPicture p counted)
      if counted then d'.raise (.slip c) (.slip .drop ch.sync.repeats (ch.withPicture p counted).sync.drops) else d' := by
  have hfrozen : (d.setChan c ch).frozen c = (ch.sync.freeze || d.cueFreeze c) := by simp [Device.frozen]
  have hqueue : appendFrame ch.sync.queue p =
      (if decide (2 ≤ ch.sync.queue.length) then ch.sync.queue.tail else ch.sync.queue) ++ [p] := by
    unfold appendFrame
    exact congrArg (· ++ [p]) (if_congr decide_eq_true_iff.symm rfl rfl)
  unfold Device.appendPicture
  simp only [Device.chan_setChan_self, Device.setChan_setChan, hfrozen, hqueue, Device.raiseSlip]
  rfl

theorem Device.completeRecon_of_none (h : (d.chan c).recon.jobs = []) : d.completeRecon c = d := by
  unfold Device.completeRecon
  dsimp only
  rw [h]

/-- A channel whose reconstruction at work is over: its field has left the ring. -/
def Channel.completed (ch : Channel) (now : Ticks) (v : View) (rest : List View) : Channel :=
  { ch with
    intake := { ch.intake with ring := releaseField ch.intake.ring v.releases }
    recon := { ch.recon with jobs := rest, workStart := now } }

/-- The reconstruction at work completes, and its frame joins the queue of a channel that is RUNNING or HOLDING. -/
theorem Device.completeRecon_of_work {v : View} {rest : List View} (h : (d.chan c).recon.jobs = v :: rest) :
    d.completeRecon c =
      let d' := d.setChan c ((d.chan c).completed d.now v rest)
      if (d.chan c).state = .running ∨ (d.chan c).state = .holding then
        d'.appendPicture c (compose (d.chan c).settings.system v)
      else d' := by
  unfold Device.completeRecon
  dsimp only
  rw [h]
  dsimp only
  split
  · rename_i hs
    exact (if_pos (.inl hs)).symm
  · rename_i hs
    exact (if_pos (.inr hs)).symm
  all_goals
    rename_i hs
    exact (if_neg (by rw [hs]; decide)).symm

/-- Settles O49, by the work and the channel's state. -/
theorem reconstructionCompletes : Obligations.ReconstructionCompletes := by
  intro s t c hq ch d
  have hnext : ∀ {d' : Device}, d.completeRecon c = d' →
      exec (.reconstructionCompletion t c) s = .next { s with dev := d' } := fun h =>
    (State.onEvent_of_works hq t c _ (works_completeRecon ..)).trans
      (congrArg (fun d' => Host.Outcome.next { s with dev := d' }) h)
  refine ⟨fun hnone => hnext (Device.completeRecon_of_none (d := d) hnone), fun v rest hjobs => ?_⟩
  intro gone intake recon full counted drops
  have hgone : v.releases = gone := View.releases_eq v
  have hcompleted : ch.completed d.now v rest = { ch with intake := intake, recon := recon } := by
    unfold Channel.completed
    rw [hgone]
    rfl
  refine ⟨fun hstate => hnext ?_, fun hr hh => hnext ?_⟩
  · refine (Device.completeRecon_of_work (d := d) hjobs).trans ((if_pos hstate).trans
      ((Device.appendPicture_setChan ..).trans ?_))
    have hd : ch.completed d.now v rest = (d.chan c).completed d.now v rest := rfl
    rw [← hd, hcompleted]
    rfl
  · refine (Device.completeRecon_of_work (d := d) hjobs).trans ((if_neg fun h => h.elim hr hh).trans ?_)
    exact congrArg (Device.setChan d c) hcompleted

end Sys2Proof.Machine
end


section
/-! PROOFS. Output frame starts (R126, R135 to R138, R146). -/

namespace Sys2Proof.Machine

variable {s : State} {d : Device} {c : Chan} {tag : Byte} {kind : OpKind}

/-! ## The end of an operation with one target -/

/-- The operation of a kind that is pending on a channel, where no other of the kind is. -/
theorem Device.pendingOp_of_mem {k : OpName} {op : Operation} (h : (d.pendingOps k c).length ≤ 1) (hmem : op ∈ d.ops)
    (hk : op.kind.name = k) (hp : op.pendingOn c = true) : d.pendingOp k c = some op := by
  have hop : op ∈ d.pendingOps k c := Device.mem_pendingOps.2 ⟨hmem, hk, hp⟩
  rw [Device.pendingOp_eq_head]
  match hl : d.pendingOps k c with
  | [] =>
    rw [hl] at hop
    cases hop
  | [x] =>
    rw [hl] at hop
    rw [List.mem_singleton.1 hop]
    rfl
  | x :: y :: rest =>
    rw [hl] at h
    simp at h

theorem Operation.pendingOn_single (tag : Byte) (kind : OpKind) (c : Chan) (r : OpResult) :
    (⟨tag, kind, [⟨c, .clear, none⟩], r⟩ : Operation).pendingOn c = true := by
  simp [Operation.pendingOn, Target.pendingOn]

/-- An operation of one target that is done leaves the table, and its reply enters the queue. -/
theorem Device.settleOp_of_mem (ht : (d.ops.map (·.tag)).Nodup) (hmem : ⟨tag, kind, [⟨c, .clear, none⟩], .none⟩ ∈ d.ops)
    (performed : Option FlushDone) (result : OpResult) : d.settleOp tag c .done performed result =
      ({ d with ops := d.ops.filter fun o => decide (o.tag ≠ tag) } : Device).enterReply
        (Operation.reply ⟨tag, kind, [⟨c, .done, performed⟩], result⟩) := by
  obtain ⟨before, after, ho⟩ := List.append_of_mem hmem
  have hdistinct : ∀ x ∈ before ++ after, x.tag ≠ tag := by
    rw [ho, List.map_append, List.map_cons, List.nodup_middle, List.nodup_cons, ← List.map_append] at ht
    exact fun x hx e => ht.1 (List.mem_map.2 ⟨x, hx, e⟩)
  have hsettle : (⟨tag, kind, [⟨c, .clear, none⟩], .none⟩ : Operation).settle c .done performed result =
      ⟨tag, kind, [⟨c, .done, performed⟩], result⟩ := by
    have hpending : (⟨c, .clear, none⟩ : Target).settle c .done performed = ⟨c, .done, performed⟩ := by
      rw [Target.settle_eq, if_pos ⟨rfl, rfl⟩]
    rw [Operation.settle, List.map_singleton, hpending]
    split <;> simp_all
  have hfilter : d.ops.filter (fun o => decide (o.tag ≠ tag)) = before ++ after := by
    rw [ho, List.filter_append, List.filter_cons_of_neg (by simp), ← List.filter_append, List.filter_eq_self]
    exact fun x hx => decide_eq_true (hdistinct x hx)
  have hends := Device.settleOp_of_distinct (c := c) (flag := .done) (performed := performed) (result := result) ho hdistinct
  rw [hsettle] at hends
  rw [hfilter]
  exact hends.trans (if_pos rfl)

/-- The operation of a kind that is pending on a channel in `d` alone ends in `u`, which holds the same operations. -/
theorem Device.endsPending_of_mem {u : Device} (h : d.OpsFit)
    (hmem : ⟨tag, kind, [⟨c, .clear, none⟩], .none⟩ ∈ d.ops) (hu : u.ops = d.ops) (performed : Option FlushDone)
    (result : OpResult) : d.endsPending kind.name c performed result u =
      ({ u with ops := d.ops.filter fun o => decide (o.tag ≠ tag) } : Device).enterReply
        (Operation.reply ⟨tag, kind, [⟨c, .done, performed⟩], result⟩) := by
  obtain ⟨hdistinct, hfits⟩ := h
  rw [Device.endsPending, Device.pendingOp_of_mem (hfits kind.name c).1 hmem rfl (Operation.pendingOn_single ..), ← hu]
  exact Device.settleOp_of_mem (hu ▸ hdistinct.1) (hu ▸ hmem) performed result

theorem Device.endsPending_log (d : Device) (k : OpName) (c : Chan) (p : Option FlushDone) (r : OpResult) (u : Device) :
    (d.endsPending k c p r u).dropLog = u.dropLog ∧ (d.endsPending k c p r u).overflow = u.overflow := by
  unfold Device.endsPending
  split
  · exact ⟨Device.settleOp_dropLog .., Device.settleOp_overflow ..⟩
  · exact ⟨rfl, rfl⟩

/-! ## An output frame start by the channel's state -/

/-- A channel after an output frame start that changes its synchroniser: the next is counted from this one (R126). -/
def Channel.showing (ch : Channel) (now : Ticks) (sync : Synchroniser) : Channel :=
  { ch with sync := sync, gen := { ch.gen with lastOut := now } }

/-- A channel whose stop has completed (R146). -/
def Channel.stopEnded (ch : Channel) (now : Ticks) : Channel :=
  { ch.stopped with tracker := ch.tracker.restarted, gen := { ch.gen with lastOut := now } }

/-- A stop completion: the channel's blocks, CADENCE where the state's name changes, and the end of the stop. -/
theorem Device.stopComplete_setChan (c : Chan) (d : Device) (ch : Channel) :
    (d.setChan c ch).stopComplete c = d.endsPending .stop c none .none
      ((d.setChan c { ch.stopped with tracker := ch.tracker.restarted }).cadenceTold c ch.tracker ch.tracker.restarted
        .flush) := by
  have htracker : ch.stopped.tracker = ch.tracker := rfl
  unfold Device.stopComplete Device.endsPending
  simp only [Device.modChan, Device.chan_setChan_self, Device.setChan_setChan, Device.setTracker_eq, htracker,
    Tracker.cleared_eq]
  rw [Device.pendingOp_congr (d := d) (by simp)] <;> rfl

/-- What an output frame start makes of the part, by the channel's state (R126, R135 to R138). -/
theorem Device.outputFrame_eq (c : Chan) (d : Device) :
    d.outputFrame c =
      let ch := d.chan c
      let shown := ch.runningFrame (ch.sync.freeze || d.cueFreeze c)
      let shows := fun sync : Synchroniser => d.setChan c (ch.showing d.now sync)
      match ch.state with
      | .off => shows { ch.sync with onAir := .black }
      | .ready => shows { ch.sync with onAir := .black }
      | .running =>
        if shown.2 then (shows shown.1).raise (.slip c) (.slip .repeat_ shown.1.repeats shown.1.drops) else shows shown.1
      | .holding => shows ch.holdingFrame
      | .stopping => d.endsPending .stop c none .none
          ((d.setChan c (ch.stopEnded d.now)).cadenceTold c ch.tracker ch.tracker.restarted .flush) := by
  have hframed : (d.modChan c fun ch => { ch with gen := { ch.gen with lastOut := d.now } }) =
      d.setChan c ((d.chan c).showing d.now (d.chan c).sync) := rfl
  have hfrozen : (d.setChan c ((d.chan c).showing d.now (d.chan c).sync)).frozen c =
      ((d.chan c).sync.freeze || d.cueFreeze c) := by simp [Device.frozen, Channel.showing]
  unfold Device.outputFrame
  dsimp only
  rw [hframed, hfrozen, Device.chan_setChan_self]
  generalize d.chan c = ch
  obtain ⟨state, settings, intake, reader, context, dropState, tracker, recon, sync, gen⟩ := ch
  cases state with
  | off | ready | holding => exact Device.setChan_setChan ..
  | running =>
    simp only [Channel.showing, Device.setChan_setChan, Device.raiseSlip, Device.chan_setChan_self]
    rfl
  | stopping => exact Device.stopComplete_setChan ..

/-! ### What goes on air -/

theorem borderColour_eq (context : Option Context) :
    borderColour context = (context.map fun x => x.params.border).getD ⟨64, 512, 512⟩ := by
  cases context <;> rfl

section Frames

variable {ch : Channel} {frozen : Bool}

theorem Channel.runningFrame_of_frozen (hf : frozen = true) (hs : ch.sync.seen = true) :
    ch.runningFrame frozen = ({ ch.sync with onAir := ch.sync.onAir.again ch.context }, false) := by
  rw [Channel.runningFrame, hf, hs]
  rfl

theorem Channel.runningFrame_of_next (h : frozen = false ∨ ch.sync.seen = false) {p : Picture} {rest : List Picture}
    (hq : ch.sync.queue = p :: rest) : ch.runningFrame frozen = (ch.sync.showNext p rest, false) := by
  rw [Channel.runningFrame, Bool.and_eq_false_iff.2 h, hq]
  rfl

theorem Channel.runningFrame_of_empty (h : frozen = false ∨ ch.sync.seen = false) (hq : ch.sync.queue = []) :
    ch.runningFrame frozen =
      if ch.sync.seen = false then ({ ch.sync with onAir := ch.slate }, false)
      else if ch.sync.awaited then ({ ch.sync with onAir := ch.sync.onAir.again ch.context }, false)
      else ({ ch.sync with onAir := ch.sync.onAir.again ch.context, repeats := saturate ch.sync.repeats }, true) := by
  rw [Channel.runningFrame, Bool.and_eq_false_iff.2 h, hq]
  simp only [Bool.false_eq_true, if_false, Bool.not_eq_true', ← hq]

theorem Channel.holdingFrame_of_next {p : Picture} {rest : List Picture} (h : ch.sync.queue = p :: rest) :
    ch.holdingFrame = ch.sync.showNext p rest := by
  rw [Channel.holdingFrame, h]

theorem Channel.holdingFrame_of_empty (h : ch.sync.queue = []) : ch.holdingFrame =
    if ch.sync.hold < ch.settings.holdLimit then
      { ch.sync with onAir := ch.sync.onAir.again ch.context, hold := ch.sync.hold + 1 }
    else { ch.sync with onAir := ch.slate } := by
  rw [Channel.holdingFrame, h]

end Frames

/-! ### The row of a generator that counts its own period -/

theorem due_outputFrame_iff (h : d.phase ≠ .held) : d.due (.outputFrame c) = true ↔
    ∃ p, (d.chan c).gen.freePeriod (d.chan c).settings.system = some p ∧ (d.chan c).gen.lastOut + p ≤ d.now := by
  have hreleased : d.released = true := by
    unfold Device.released
    split
    · rename_i hp
      exact absurd hp h
    · rfl
    · rfl
  simp [Device.due, hreleased, Option.any_eq_true]

/-- Settles O50, by the channel's state. -/
theorem outputFrameByState : Obligations.OutputFrameByState := by
  intro s t c hq ch d gen slate again frozen nominal period made starts shows
  have hagain : ch.sync.onAir.again ch.context = again := by
    cases h : ch.sync.onAir <;> simp only [again, h, OutFrame.again, slate, borderColour_eq]
  have hslate : ch.slate = slate := congrArg OutFrame.slate (borderColour_eq ch.context)
  have hperiod : (d.chan c).gen.freePeriod (d.chan c).settings.system = period := rfl
  have hdue : d.due (.outputFrame c) = true ↔ made := by
    rw [due_outputFrame_iff (d := d) hq.1, hperiod]
    rfl
  have hexec : exec (.outputFrameStart t c) s = .next { s with dev := d.expire (.outputFrame c) } := by
    refine State.onEvent_of_works hq t c (Device.expire (.outputFrame c)) ?_
    unfold Device.expire
    split
    · exact works_outputFrame ..
    · exact Works.refl ..
  have hstarts : ∀ {dev : Device}, d.outputFrame c = dev → starts dev := fun h => ⟨h, fun hmade =>
    hexec.trans (congrArg (fun d' => Host.Outcome.next { s with dev := d' }) ((Device.expire_of_due (hdue.2 hmade)).trans h))⟩
  have hframe := Device.outputFrame_eq c d
  have hstate : (d.chan c).state = ch.state := rfl
  dsimp only at hframe
  rw [hstate] at hframe
  refine ⟨fun hnot => ?_, fun hoff => hstarts ?_, fun hrun => ?_, fun hhold => ?_, fun hstop => ?_⟩
  · exact hexec.trans (congrArg (fun d' => Host.Outcome.next { s with dev := d' })
      (Device.expire_of_not_due (Bool.eq_false_iff.2 fun h => hnot (hdue.1 h))))
  · obtain hoff | hoff := hoff <;> rw [hoff] at hframe <;> exact hframe
  · rw [hrun] at hframe
    have hrunning : (d.chan c).runningFrame ((d.chan c).sync.freeze || d.cueFreeze c) = ch.runningFrame frozen := rfl
    dsimp only at hframe
    rw [hrunning] at hframe
    have hshows : ∀ {sync : Synchroniser}, ch.runningFrame frozen = (sync, false) → shows sync := fun h => hstarts (by
      rw [h] at hframe
      exact hframe)
    refine ⟨fun hf hs => hshows ?_, fun hmove => ⟨fun p rest hqueue => hshows ?_, fun hempty hs => hshows ?_,
      fun hempty hs ha => hshows ?_, fun hempty hs ha => hstarts ?_⟩⟩
    · rw [Channel.runningFrame_of_frozen hf hs, hagain]
    · exact Channel.runningFrame_of_next hmove hqueue
    · rw [Channel.runningFrame_of_empty hmove hempty, if_pos hs, hslate]
    · rw [Channel.runningFrame_of_empty hmove hempty, if_neg (by rw [hs]; decide), if_pos ha, hagain]
    · have hslip : ch.runningFrame frozen =
          ({ ch.sync with onAir := again, repeats := saturate ch.sync.repeats }, true) := by
        rw [Channel.runningFrame_of_empty hmove hempty, if_neg (by rw [hs]; decide), if_neg (by rw [ha]; decide), hagain]
      rw [hslip] at hframe
      exact hframe
  · rw [hhold] at hframe
    have hholding : (d.chan c).holdingFrame = ch.holdingFrame := rfl
    dsimp only at hframe
    rw [hholding] at hframe
    refine ⟨fun p rest hqueue => hstarts ?_, fun hempty hlt => hstarts ?_, fun hempty hge => hstarts ?_⟩
    · rw [Channel.holdingFrame_of_next hqueue] at hframe
      exact hframe
    · rw [Channel.holdingFrame_of_empty hempty, if_pos hlt, hagain] at hframe
      exact hframe
    · rw [Channel.holdingFrame_of_empty hempty, if_neg (Nat.not_lt.2 hge), hslate] at hframe
      exact hframe
  · rw [hstop] at hframe
    dsimp only at hframe
    intro ended raised
    have hended : d.setChan c ((d.chan c).stopEnded d.now) = ended := by
      unfold Channel.stopEnded Channel.stopped
      exact congrArg (fun x => d.setChan c { ch with
        state := .ready
        intake := { ch.intake with
          field := none, ring := [], discard := false, prevIdentity := none, timeout := none, input := .normal }
        reader := { ch.reader with selection := none, lastCount := none, phaseMemory := none }
        dropState := false
        tracker := ch.tracker.restarted
        recon := .reset
        sync := { ch.sync with queue := [], onAir := x }
        gen := gen }) hslate
    have hraised : (d.setChan c ((d.chan c).stopEnded d.now)).cadenceTold c (d.chan c).tracker (d.chan c).tracker.restarted
        .flush = raised := by
      rw [hended]
      rfl
    have hops : raised.ops = d.ops := hraised ▸ (Device.cadenceTold_ops ..).trans (Device.setChan_ops ..)
    obtain ⟨hlog, hover⟩ := Device.cadenceTold_dropLog c (d.chan c).tracker (d.chan c).tracker.restarted .flush
      (d.setChan c ((d.chan c).stopEnded d.now))
    rw [hraised] at hframe hlog hover
    obtain ⟨hendsLog, hendsOver⟩ := Device.endsPending_log d .stop c none .none raised
    refine ⟨_, hstarts hframe, hframe ▸ (works_outputFrame c d).keepsRest, (Device.endsPending_chan ..).trans ?_,
      hendsLog.trans hlog, hendsOver.trans hover, fun tag hfit hmem =>
        Device.endsPending_of_mem (d := d) (kind := .stop) hfit hmem hops none .none⟩
    rw [← hraised, Device.cadenceTold_chan, hended]

end Sys2Proof.Machine
end


section
/-! PROOFS. The loss of a reference and the end of the acquisition window (R129, R130). -/

namespace Sys2Proof.Machine

variable {s : State} {d : Device} {c : Chan} {tag : Byte}

/-! ## The rows of timers -/

/-- The row of a timer whose expiry is work on one channel. -/
theorem exec_expire (h : s.dev.Quiet) (t : Ticks) (c : Chan) (timer : Timer)
    (hw : Works c (s.dev.arrive t) ((s.dev.arrive t).fire timer)) :
    s.onEvent t (Device.expire timer) = .next { s with dev := (s.dev.arrive t).expire timer } := by
  refine State.onEvent_of_works h t c (Device.expire timer) ?_
  unfold Device.expire
  split
  · exact hw
  · exact Works.refl ..

theorem Device.silent_iff (d : Device) (last : Option Ticks) (duration : Ticks) :
    d.silent last duration = true ↔ ∀ t, last = some t → t + duration ≤ d.now := by
  simp [Device.silent, Option.all_eq_true]

theorem due_reference_iff (d : Device) (c : Chan) : d.due (.reference c) = true ↔
    ∃ src, (d.chan c).gen.state = .settled (.locked src) ∧
      d.silent (d.lastReference c src) (d.chan c).settings.system.lossTime = true := by
  unfold Device.due
  dsimp only
  split
  · rename_i src h
    simp [h]
  · rename_i h
    exact iff_of_false Bool.false_ne_true fun ⟨src, hs, _⟩ => h src hs

theorem due_priorReference_iff (d : Device) (c : Chan) : d.due (.priorReference c) = true ↔
    ∃ a src, (d.chan c).gen.state = .acquire a ∧ a.prior = .locked src ∧
      d.silent (d.lastReference c src) (d.chan c).settings.system.lossTime = true := by
  unfold Device.due
  dsimp only
  split
  · rename_i a h
    split
    · rename_i src hp
      simp [h, hp]
    · rename_i hp
      refine iff_of_false Bool.false_ne_true fun ⟨a', src, hs, hp', _⟩ => hp src ?_
      obtain rfl := TimingState.acquire.inj (h.symm.trans hs)
      exact hp'
  · rename_i h
    exact iff_of_false Bool.false_ne_true fun ⟨a, src, hs, _⟩ => h a hs

theorem due_acquisition_iff (d : Device) (c : Chan) : d.due (.acquisition c) = true ↔
    ∃ a, (d.chan c).gen.state = .acquire a ∧ a.began + (d.chan c).settings.system.window ≤ d.now := by
  unfold Device.due
  dsimp only
  split
  · rename_i a h
    simp [h]
  · rename_i h
    exact iff_of_false Bool.false_ne_true fun ⟨a, hs, _⟩ => h a hs

/-! ## The loss of a reference -/

/-- A channel whose generator takes a state and makes an output frame start. -/
def Device.restarted (d : Device) (c : Chan) (timing : TimingState) : Device :=
  (d.setChan c { d.chan c with gen := { (d.chan c).gen with state := timing } }).outputFrame c

theorem Device.restarted_gen (d : Device) (c : Chan) (timing : TimingState) :
    ((d.restarted c timing).chan c).gen = ⟨timing, (d.chan c).gen.kept, d.now, (d.chan c).gen.lastInput⟩ := by
  rw [Device.restarted, Device.outputFrame_gen, Device.chan_setChan_self]
  rfl

theorem Device.loseReference_eq {src : RefSource} (h : (d.chan c).gen.state = .settled (.locked src)) :
    d.loseReference c = (d.restarted c (.settled (.holdover src))).raise (.timing c)
      (.timing src.source .holdover .referenceLost) := by
  have hgen := d.restarted_gen c (.settled (.holdover src))
  unfold Device.loseReference
  rw [h]
  change (d.restarted c (.settled (.holdover src))).raiseTiming c .referenceLost = _
  rw [Device.raiseTiming, hgen]
  rfl

theorem Device.losePriorReference_eq {a : Acquisition} {src : RefSource} (h : (d.chan c).gen.state = .acquire a)
    (hp : a.prior = .locked src) : d.losePriorReference c = d.restarted c (.acquire { a with prior := .holdover src }) := by
  unfold Device.losePriorReference
  rw [h]
  dsimp only
  rw [hp]
  rfl

/-! ## The end of the acquisition window -/

/-- The house family of the other system. -/
def otherFamily : System → HouseFamily
  | .s625 => .f5994
  | .s525 => .f50

theorem wrongFamily_iff (y : System) (f : HouseFamily) : wrongFamily y f = true ↔ f = otherFamily y := by
  cases y <;> cases f <;> simp [wrongFamily, otherFamily]

theorem failureReason_eq (y : System) (f : HouseFamily) (a : Acquisition) : failureReason y f a =
    if a.seen = false then .absent
    else if a.target = .house ∧ f = otherFamily y then .wrongFamily
    else .unstable := by
  simp [failureReason, wrongFamily_iff]

/-- An acquisition fails for one of the three reasons that end it with FAILED (R129). -/
theorem failureReason_cases (y : System) (f : HouseFamily) (a : Acquisition) :
    failureReason y f a = .absent ∨ failureReason y f a = .wrongFamily ∨ failureReason y f a = .unstable := by
  unfold failureReason
  split
  · exact .inl rfl
  · split
    · exact .inr (.inl rfl)
    · exact .inr (.inr rfl)

/-- A TIMING_SELECT that ends with a reason and a state (R128, R129, R155). -/
theorem reply_of_timing (tag : Byte) (c : Chan) (reason : TimingReason) (source : TimingSource) (name : TimingName) :
    Operation.reply ⟨tag, .timing, [⟨c, .done, none⟩], .timing reason source name⟩ =
      ⟨tag, if reason = .absent ∨ reason = .wrongFamily ∨ reason = .unstable then .failed else .ok, 0x42,
        [reason.code, source.code, name.code]⟩ := by
  cases reason <;> rfl

/-- The commanded acquisition of a channel ends with the source and state in force (R128, R129). -/
theorem Device.settleTiming_of_pending (ht : (d.ops.map (·.tag)).Nodup)
    (hp : d.pendingOp .timing c = some ⟨tag, .timing, [⟨c, .clear, none⟩], .none⟩) (reason : TimingReason) :
    d.settleTiming c reason =
      ({ d with ops := d.ops.filter fun o => decide (o.tag ≠ tag) } : Device).answer tag 0x42
        (if reason = .absent ∨ reason = .wrongFamily ∨ reason = .unstable then .failed else .ok)
        [reason.code, (d.chan c).gen.state.source.code, (d.chan c).gen.state.name.code] := by
  unfold Device.settleTiming
  rw [hp]
  dsimp only
  rw [Device.settleOp_of_mem ht (Device.mem_of_pendingOp hp).1, reply_of_timing]
  rfl

theorem Device.settleTiming_dropLog (c : Chan) (reason : TimingReason) (d : Device) :
    (d.settleTiming c reason).dropLog = d.dropLog := by
  unfold Device.settleTiming
  split
  · exact Device.settleOp_dropLog ..
  · rfl

/-- A generator back in its prior state with the period it remembers (R129). -/
def Channel.windowEnded (ch : Channel) (a : Acquisition) : Channel :=
  { ch with gen := { ch.gen with state := .settled a.prior, kept := a.priorKept } }

theorem Device.failAcquisition_eq {a : Acquisition} (h : (d.chan c).gen.state = .acquire a) :
    d.failAcquisition c =
      let reason := failureReason (d.chan c).settings.system d.houseFamily a
      let restored : TimingState := .settled a.prior
      let told := (d.setChan c ((d.chan c).windowEnded a)).raise (.timing c) (.timing restored.source restored.name reason)
      if a.commanded then told.settleTiming c reason else told := by
  unfold Device.failAcquisition
  dsimp only
  rw [h]
  simp only [Device.setTiming, Device.keepPeriod, Device.modChan, Device.chan_setChan_self, Device.setChan_setChan,
    Device.raiseTiming]
  rfl

/-- Settles O52, row by row. -/
theorem referenceLossAndWindowEnd : Obligations.ReferenceLossAndWindowEnd := by
  intro s t c hq g d y started framed silent
  let ch := s.dev.chan c
  have hrow : ∀ {timer : Timer} {d' : Device}, Works c d (d.fire timer) → d.due timer = true → d.fire timer = d' →
      s.onEvent t (Device.expire timer) = .next { s with dev := d' } := fun hw hdue h =>
    (exec_expire hq t c _ hw).trans
      (congrArg (fun d' => Host.Outcome.next { s with dev := d' }) ((Device.expire_of_due hdue).trans h))
  have hidle : ∀ {timer : Timer}, Works c d (d.fire timer) → ¬ d.due timer = true →
      s.onEvent t (Device.expire timer) = .next { s with dev := d } := fun hw hdue =>
    (exec_expire hq t c _ hw).trans
      (congrArg (fun d' => Host.Outcome.next { s with dev := d' }) (Device.expire_of_not_due (Bool.eq_false_iff.2 hdue)))
  have hsilent : ∀ src, d.silent (d.lastReference c src) y.lossTime = true ↔ silent src := fun src => Device.silent_iff ..
  have hkeeps : ∀ timing, Works c d (started timing) := fun timing =>
    (Works.setChan d c _).trans (works_outputFrame c _)
  have hlog : ∀ timing, (started timing).dropLog = d.dropLog := fun timing => Device.outputFrame_dropLog ..
  have hwl := works_loseReference c d
  have hwp := works_losePriorReference c d
  have hwa := works_failAcquisition c d
  refine ⟨fun src hg hs => ?_, fun hnot => hidle hwl ?_, fun a src hg hp hs => ?_, fun hnot => hidle hwp ?_,
    fun a hg hend => ?_, fun hnot => hidle hwa ?_⟩
  · have hlose : d.loseReference c = (started (.settled (.holdover src))).raise (.timing c)
        (.timing src.source .holdover .referenceLost) := Device.loseReference_eq (d := d) hg
    refine ⟨_, hrow hwl ((due_reference_iff d c).2 ⟨src, hg, (hsilent src).2 hs⟩) hlose, ?_⟩
    dsimp only
    exact ⟨((hkeeps _).trans (.raise ..)).keepsRest, (Device.raise_dropLog ..).trans (hlog _),
      (congrArg Channel.gen (Device.raise_chan ..)).trans (d.restarted_gen c _), Device.raise_chan .., rfl⟩
  · rw [due_reference_iff]
    rintro ⟨src, hg, hs⟩
    exact hnot src hg ((hsilent src).1 hs)
  · have hlose : d.losePriorReference c = started (.acquire { a with prior := .holdover src }) :=
      Device.losePriorReference_eq (d := d) hg hp
    refine ⟨_, hrow hwp ((due_priorReference_iff d c).2 ⟨a, src, hg, hp, (hsilent src).2 hs⟩) hlose, ?_⟩
    dsimp only
    exact ⟨(hkeeps _).keepsRest, hlog _, d.restarted_gen c _, rfl, rfl⟩
  · rw [due_priorReference_iff]
    rintro ⟨a, src, hg, hp, hs⟩
    exact hnot a src hg hp ((hsilent src).1 hs)
  · let reason := failureReason y d.houseFamily a
    let restored : TimingState := .settled a.prior
    let told := (d.setChan c (ch.windowEnded a)).raise (.timing c) (.timing restored.source restored.name reason)
    have hfail : d.failAcquisition c = if a.commanded then told.settleTiming c reason else told :=
      Device.failAcquisition_eq (d := d) hg
    have htold : told.chan c = ch.windowEnded a := (Device.raise_chan ..).trans (Device.chan_setChan_self ..)
    have hops : told.ops = s.dev.ops := (Device.raise_ops ..).trans (Device.setChan_ops ..)
    have hchan : (d.failAcquisition c).chan c = ch.windowEnded a := by
      rw [hfail]
      split
      · exact (Device.settleTiming_chan ..).trans htold
      · exact htold
    have hlogTold : told.dropLog = d.dropLog := (Device.raise_dropLog ..).trans (Device.setChan_dropLog ..)
    have hlogFail : (d.failAcquisition c).dropLog = d.dropLog := by
      rw [hfail]
      split
      · exact (Device.settleTiming_dropLog ..).trans hlogTold
      · exact hlogTold
    refine ⟨_, hrow (d' := d.failAcquisition c) hwa ((due_acquisition_iff d c).2 ⟨a, hg, hend⟩) rfl, hwa.keepsRest, hlogFail, hchan, ?_⟩
    intro reason' restored' told'
    have hreason : reason' = reason := (failureReason_eq y d.houseFamily a).symm
    have hrestored : restored' = (restored.source, restored.name) := by
      simp only [restored', restored]
      cases a.prior <;> rfl
    have htold' : told' = told := by
      simp only [told', hreason, hrestored, hchan, told]
    refine ⟨fun hauto => ?_, fun tag hcommanded hfit hmem => ?_⟩
    · rw [htold']
      exact hfail.trans (if_neg (by rw [hauto]; decide))
    · have hpending : told.pendingOp .timing c = some ⟨tag, .timing, [⟨c, .clear, none⟩], .none⟩ :=
        (Device.pendingOp_congr hops ..).trans
          (Device.pendingOp_of_mem (hfit.2 .timing c).1 hmem rfl (Operation.pendingOn_single ..))
      have hends := Device.settleTiming_of_pending (hops.symm ▸ hfit.1.1) hpending reason
      rw [if_pos (failureReason_cases ..), htold, hops] at hends
      rw [htold', hreason, hrestored]
      exact (hfail.trans (if_pos hcommanded)).trans hends
  · rw [due_acquisition_iff]
    rintro ⟨a, hg, hend⟩
    exact Nat.not_le.2 (hnot a hg) hend

end Sys2Proof.Machine
end


section
/-! PROOFS. Reference frame starts and the house reference input (R125, R126, R128, R130). -/

namespace Sys2Proof.Machine

variable {s : State} {d v : Device} {c : Chan} {tag : Byte} {src : RefSource} {interval : Option Ticks}

/-! ## Output frame starts and the operations -/

/-- An output frame start ends no operation but a stop. -/
theorem Device.outputFrame_ops (c : Chan) (d : Device) : (d.outputFrame c).ops = d.ops ∨
    ∃ u : Device, u.ops = d.ops ∧ d.outputFrame c = d.endsPending .stop c none .none u := by
  rw [Device.outputFrame_eq]
  dsimp only
  cases (d.chan c).state with
  | off | ready | holding => exact .inl (Device.setChan_ops ..)
  | running =>
    refine .inl ?_
    dsimp only
    split
    · exact (Device.raise_ops ..).trans (Device.setChan_ops ..)
    · exact Device.setChan_ops ..
  | stopping => exact .inr ⟨_, (Device.cadenceTold_ops ..).trans (Device.setChan_ops ..), rfl⟩

theorem Device.outputFrame_tags (c : Chan) (d : Device) :
    ((d.outputFrame c).ops.map (·.tag)).Sublist (d.ops.map (·.tag)) := by
  obtain h | ⟨u, hu, h⟩ := Device.outputFrame_ops c d
  · rw [h]
  · rw [h, ← hu]
    exact Device.endsPending_tags ..

theorem Device.pendingOp_outputFrame (ht : (d.ops.map (·.tag)).Nodup) {k : OpName} (hk : k ≠ .stop) :
    (d.outputFrame c).pendingOp k c = d.pendingOp k c := by
  obtain h | ⟨u, hu, h⟩ := Device.outputFrame_ops c d
  · exact Device.pendingOp_congr h k c
  · rw [h, Device.pendingOp_endsPending ht (by rw [hu]) hk (Device.pendingOp_congr hu ..), Device.pendingOp_congr hu]

/-! ## A reference frame start of a source on a channel -/

/-- A channel whose generator a reference frame start has changed, before the output frame start that it may make. -/
def Device.referredTo (v : Device) (c : Chan) (g : Generator) : Device := v.setChan c { v.chan c with gen := g }

/-- The output frame start of a reference frame start: where one is asked for and half a period has passed (R126). -/
def Device.framedIf (v : Device) (c : Chan) (g : Generator) (asked : Bool) : Device :=
  if asked = true ∧ (v.chan c).gen.lastOut + (v.chan c).settings.system.guard ≤ v.now then
    (v.referredTo c g).outputFrame c
  else v.referredTo c g

theorem Device.referredTo_self (v : Device) (c : Chan) : v.referredTo c (v.chan c).gen = v := Device.setChan_chan_self v c

theorem Device.framedIf_false (v : Device) (c : Chan) (g : Generator) : v.framedIf c g false = v.referredTo c g :=
  if_neg fun h => Bool.false_ne_true h.1

theorem Device.guardedFrame_referredTo (v : Device) (c : Chan) {g : Generator} (h : g.lastOut = (v.chan c).gen.lastOut) :
    (v.referredTo c g).guardedFrame c = v.framedIf c g true := by
  unfold Device.guardedFrame Device.framedIf Device.referredTo
  simp only [Device.chan_setChan_self, h, true_and]
  rfl

/-- What a reference frame start makes of the generator of a channel. -/
def Device.referredGen (v : Device) (c : Chan) (src : RefSource) (interval : Option Ticks) : Generator × Bool :=
  (v.chan c).gen.referred (v.chan c).settings.system src interval v.now

/-- The channel as a reference frame start leaves it, but for what the end of a holdover or a lock tells. -/
def Device.framed (v : Device) (c : Chan) (src : RefSource) (interval : Option Ticks) : Device :=
  v.framedIf c (v.referredGen c src interval).1 (v.referredGen c src interval).2

theorem Device.referenceStart_free (h : (v.chan c).gen.state = .settled .free) :
    v.referenceStart c src interval = v.framed c src interval := by
  rw [Device.framed, Device.referredGen, Generator.referred_free h, Device.framedIf_false, Device.referredTo_self]
  unfold Device.referenceStart
  dsimp only
  rw [h]

theorem Device.referenceStart_locked {x : RefSource} (h : (v.chan c).gen.state = .settled (.locked x)) :
    v.referenceStart c src interval = v.framed c src interval := by
  have hstart : v.referenceStart c src interval =
      if x = src then
        (if withinBand (v.chan c).settings.system interval then v.keepPeriod c interval else v).guardedFrame c
      else v := by
    unfold Device.referenceStart
    dsimp only
    rw [h]
  rw [hstart, Device.framed, Device.referredGen, Generator.referred_locked h]
  split
  · refine Eq.trans (congrArg (Device.guardedFrame c) ?_) (v.guardedFrame_referredTo c rfl)
    cases withinBand (v.chan c).settings.system interval
    · exact (v.referredTo_self c).symm
    · rfl
  · rw [Device.framedIf_false, Device.referredTo_self]

/-- A reference frame start that ends a holdover begins an acquisition and tells of it (R130). -/
theorem Device.referenceStart_reacquire (h : (v.chan c).gen.state = .settled (.holdover src)) :
    v.referenceStart c src interval = (v.referredTo c (v.referredGen c src interval).1).raise (.timing c)
      (.timing src.source .acquire .reacquire) := by
  have hstart : v.referenceStart c src interval =
      (v.setTiming c (.acquire ⟨false, src, .holdover src, (v.chan c).gen.kept, 1, v.now, true⟩)).raiseTiming c
        .reacquire := by
    unfold Device.referenceStart
    dsimp only
    rw [h]
    exact if_pos rfl
  rw [hstart, Device.referredGen, Generator.referred_holdover h, if_pos rfl, Device.raiseTiming, Device.setTiming,
    Device.chan_modChan_self]
  rfl

theorem Device.referenceStart_holdover {x : RefSource} (h : (v.chan c).gen.state = .settled (.holdover x)) (hne : x ≠ src) :
    v.referenceStart c src interval = v.framed c src interval := by
  rw [Device.framed, Device.referredGen, Generator.referred_holdover h, if_neg hne, Device.framedIf_false,
    Device.referredTo_self]
  unfold Device.referenceStart
  dsimp only
  rw [h]
  exact if_neg hne

/-- An acquisition whose LOCKED prior state follows the source keeps an interval within tolerance for it (R129). -/
def Acquisition.follow (a : Acquisition) (src : RefSource) (within : Bool) (interval : Option Ticks) : Acquisition :=
  if decide (a.prior = .locked src) && within then { a with priorKept := interval } else a

theorem Acquisition.follow_parts (a : Acquisition) (src : RefSource) (within : Bool) (interval : Option Ticks) :
    (a.follow src within interval).target = a.target ∧ (a.follow src within interval).commanded = a.commanded ∧
      (a.follow src within interval).nextRun within = a.nextRun within := by
  unfold Acquisition.follow
  split <;> exact ⟨rfl, rfl, rfl⟩

theorem Device.setTiming_framedIf (v : Device) (c : Chan) (timing : TimingState) (asked : Bool) :
    (if asked then (v.setTiming c timing).guardedFrame c else v.setTiming c timing) =
      v.framedIf c { (v.chan c).gen with state := timing } asked := by
  cases asked with
  | false => exact (v.framedIf_false c _).symm
  | true => exact v.guardedFrame_referredTo c rfl

theorem Device.framedIf_gen (v : Device) (c : Chan) (g : Generator) (asked : Bool) :
    ((v.framedIf c g asked).chan c).gen = { g with
      lastOut := if asked = true ∧ (v.chan c).gen.lastOut + (v.chan c).settings.system.guard ≤ v.now then v.now
        else g.lastOut } := by
  unfold Device.framedIf Device.referredTo
  split
  · rw [Device.outputFrame_gen, Device.chan_setChan_self]
    rfl
  · rw [Device.chan_setChan_self]

/-- Lock is declared: the output frame start, TIMING, and the end of a commanded acquisition (R128). -/
theorem Device.declareLock_eq (v : Device) (c : Chan) (src : RefSource) (commanded : Bool) (interval : Option Ticks) :
    v.declareLock c src commanded interval =
      let g : Generator := { (v.chan c).gen with state := .settled (.locked src), kept := interval }
      let told := (v.framedIf c g true).raise (.timing c) (.timing src.source .locked .lock)
      if commanded then told.settleTiming c .lock else told := by
  have hreferred : (v.setTiming c (.settled (.locked src))).keepPeriod c interval =
      v.referredTo c { (v.chan c).gen with state := .settled (.locked src), kept := interval } := by
    unfold Device.keepPeriod Device.setTiming Device.modChan Device.referredTo
    rw [Device.setChan_setChan, Device.chan_setChan_self]
  have hguarded := v.guardedFrame_referredTo c
    (g := { (v.chan c).gen with state := .settled (.locked src), kept := interval }) rfl
  unfold Device.declareLock
  rw [hreferred, hguarded]
  dsimp only
  rw [Device.raiseTiming, Device.framedIf_gen]
  rfl

/-- An acquisition goes on, or declares lock and tells of it (R128). -/
theorem Device.referenceStart_acquire {a : Acquisition} (h : (v.chan c).gen.state = .acquire a) :
    v.referenceStart c src interval =
      if a.target = src ∧ 8 ≤ a.nextRun (withinBand (v.chan c).settings.system interval) then
        let told := (v.framed c src interval).raise (.timing c) (.timing src.source .locked .lock)
        if a.commanded then told.settleTiming c .lock else told
      else v.framed c src interval := by
  have hframed : v.framed c src interval =
      v.framedIf c (v.referredGen c src interval).1 (v.referredGen c src interval).2 := rfl
  rw [Device.referredGen, Generator.referred_acquire h] at hframed
  generalize hwithin : withinBand (v.chan c).settings.system interval = within at hframed ⊢
  obtain ⟨htarget, hcommanded, hrun⟩ := a.follow_parts src within interval
  have hstart : v.referenceStart c src interval =
      if a.target = src then
        if 8 ≤ a.nextRun within then v.declareLock c src a.commanded interval
        else
          v.framedIf c { (v.chan c).gen with
            state := .acquire { a.follow src within interval with run := a.nextRun within, seen := true } }
            (decide (a.prior = .locked src))
      else v.framedIf c { (v.chan c).gen with state := .acquire (a.follow src within interval) }
        (decide (a.prior = .locked src)) := by
    rw [← Device.setTiming_framedIf, ← Device.setTiming_framedIf, ← htarget, ← hcommanded, ← hrun]
    unfold Device.referenceStart
    dsimp only
    rw [h]
    dsimp only
    rw [hwithin]
    rfl
  rw [hstart]
  by_cases ht : a.target = src
  · by_cases h8 : 8 ≤ a.nextRun within
    · rw [if_pos ht, if_pos h8] at hframed ⊢
      rw [if_pos ⟨ht, h8⟩, hframed]
      exact Device.declareLock_eq ..
    · rw [if_pos ht, if_neg h8] at hframed ⊢
      rw [if_neg fun h => h8 h.2, hframed]
      rfl
  · rw [if_neg ht] at hframed ⊢
    rw [if_neg fun h => ht h.1, hframed]
    rfl

/-! ### What a lock leaves of the operations -/

theorem Device.pendingOp_framed (ht : (v.ops.map (·.tag)).Nodup) {k : OpName} (hk : k ≠ .stop) :
    (v.framed c src interval).pendingOp k c = v.pendingOp k c ∧
      (((v.framed c src interval).ops.map (·.tag)).Nodup) := by
  unfold Device.framed Device.framedIf
  split
  · exact ⟨Device.pendingOp_outputFrame (d := v.referredTo c _) ht hk, (Device.outputFrame_tags c _).nodup ht⟩
  · exact ⟨rfl, ht⟩

/-- A lock that ends a commanded acquisition (R128). -/
theorem Device.settleTiming_of_lock (hfit : v.OpsFit) (hmem : ⟨tag, .timing, [⟨c, .clear, none⟩], .none⟩ ∈ v.ops)
    (hlocked : ((v.framed c src interval).chan c).gen.state = .settled (.locked src)) :
    let told := (v.framed c src interval).raise (.timing c) (.timing src.source .locked .lock)
    told.settleTiming c .lock = ({ told with ops := told.ops.filter fun o => decide (o.tag ≠ tag) } : Device).answer tag 0x42
      .ok [0x02, src.source.code, 0x02] := by
  intro told
  obtain ⟨hdistinct, hfits⟩ := hfit
  obtain ⟨hpending, htags⟩ := Device.pendingOp_framed (c := c) (src := src) (interval := interval) hdistinct.1
    (k := .timing) (by decide)
  have hops : told.ops = (v.framed c src interval).ops := Device.raise_ops ..
  have hop : told.pendingOp .timing c = some ⟨tag, .timing, [⟨c, .clear, none⟩], .none⟩ :=
    (Device.pendingOp_congr hops ..).trans (hpending.trans
      (Device.pendingOp_of_mem (hfits .timing c).1 hmem rfl (Operation.pendingOn_single ..)))
  have hgen : (told.chan c).gen.state = .settled (.locked src) :=
    (congrArg (fun ch : Channel => ch.gen.state) (Device.raise_chan ..)).trans hlocked
  have hends := Device.settleTiming_of_pending (hops.symm ▸ htags) hop .lock
  rw [hgen] at hends
  exact hends

/-! ## A channel after a reference frame start -/

/-- A FREEZE line is never driven by the part, so the cue freeze level reads the cue lines alone. -/
theorem Device.cueFreeze_congr {d d' : Device} (hc : d'.cues = d.cues) (ho : d'.cueOutside = d.cueOutside) (c : Chan) :
    d'.cueFreeze c = d.cueFreeze c := by
  have hcue : ∀ n, d'.cue n = d.cue n := fun n => by simp only [Device.cue, hc]
  unfold Device.cueFreeze
  congr 1
  funext n
  rw [hcue]
  by_cases hf : (d.cue n).function = .freeze c
  · have hlevel : d'.cueActive n = d.cueActive n := by
      simp only [Device.cueActive, Device.sensed, Device.lineLevel, Device.drives, hcue, hf, ho]
    rw [hlevel]
  · simp [hf]

/-- A channel after an output frame start, by its state (R135 to R138). -/
def Channel.atFrame (ch : Channel) (now : Ticks) (cueFreeze : Bool) : Channel :=
  match ch.state with
  | .off => ch.showing now { ch.sync with onAir := .black }
  | .ready => ch.showing now { ch.sync with onAir := .black }
  | .running => ch.showing now (ch.runningFrame (ch.sync.freeze || cueFreeze)).1
  | .holding => ch.showing now ch.holdingFrame
  | .stopping => ch.stopEnded now

theorem Device.outputFrame_chan (c : Chan) (d : Device) :
    (d.outputFrame c).chan c = (d.chan c).atFrame d.now (d.cueFreeze c) := by
  rw [Device.outputFrame_eq, Channel.atFrame]
  dsimp only
  cases (d.chan c).state with
  | off | ready | holding => exact Device.chan_setChan_self ..
  | running =>
    dsimp only
    split
    · exact (Device.raise_chan ..).trans (Device.chan_setChan_self ..)
    · exact Device.chan_setChan_self ..
  | stopping => exact (Device.endsPending_chan ..).trans ((Device.cadenceTold_chan ..).trans (Device.chan_setChan_self ..))

/-- A channel after a reference frame start reads its own blocks, the clock and its cue freeze level alone. -/
theorem Device.referenceStart_chan_congr {u v : Device} (h : u.chan c = v.chan c) (hnow : u.now = v.now)
    (hcue : u.cueFreeze c = v.cueFreeze c) :
    (u.referenceStart c src interval).chan c = (v.referenceStart c src interval).chan c := by
  simp only [Device.referenceStart_chan, Device.outputFrame_chan, Device.chan_setChan_self, Device.setChan_now,
    Device.cueFreeze_setChan, h, hnow, hcue]

/-- Whether a reference frame start makes an output frame start. -/
def Device.framesAt (v : Device) (c : Chan) (src : RefSource) (interval : Option Ticks) : Bool :=
  (v.referredGen c src interval).2 && decide ((v.chan c).gen.lastOut + (v.chan c).settings.system.guard ≤ v.now)

theorem Device.referenceStart_chan_frame (v : Device) (c : Chan) (src : RefSource) (interval : Option Ticks) :
    (v.referenceStart c src interval).chan c =
      if v.framesAt c src interval then ((v.referredTo c (v.referredGen c src interval).1).outputFrame c).chan c
      else { v.chan c with gen := (v.referredGen c src interval).1 } := by
  refine (Device.referenceStart_chan c src interval v).trans (if_congr ?_ rfl rfl)
  rw [Device.framesAt, Bool.and_eq_true, decide_eq_true_iff]
  rfl

theorem Device.referenceStart_chan_quiet {g : Generator} (h : v.referredGen c src interval = (g, false)) :
    (v.referenceStart c src interval).chan c = { v.chan c with gen := g } := by
  rw [Device.referenceStart_chan_frame, Device.framesAt, h]
  rfl

theorem Generator.referred_lastOut (g : Generator) (y : System) (src : RefSource) (interval : Option Ticks) (now : Ticks) :
    (g.referred y src interval now).1.lastOut = g.lastOut := by
  unfold Generator.referred
  dsimp only
  repeat' split
  all_goals rfl

theorem Device.referenceStart_chan_gen (v : Device) (c : Chan) (src : RefSource) (interval : Option Ticks) :
    ((v.referenceStart c src interval).chan c).gen = { (v.referredGen c src interval).1 with
      lastOut := if v.framesAt c src interval then v.now else (v.chan c).gen.lastOut } := by
  have hlast : (v.referredGen c src interval).1.lastOut = (v.chan c).gen.lastOut := Generator.referred_lastOut ..
  rw [Device.referenceStart_chan_frame]
  split
  · rw [Device.outputFrame_gen, Device.referredTo, Device.chan_setChan_self]
    rfl
  · rw [← hlast]

/-! ## The house reference input (R125) -/

/-- Work on channels in turn: each finds its own channel, and what no channel's work reaches, as they were. -/
theorem foldl_works {f : Chan → Device → Device} (hf : ∀ c u, Works c u (f c u)) (cs : List Chan) (u : Device) :
    (cs.foldl (fun u c => f c u) u).shell = u.shell ∧ ∀ c, c ∉ cs → (cs.foldl (fun u c => f c u) u).chan c = u.chan c := by
  induction cs generalizing u with
  | nil => exact ⟨rfl, fun _ _ => rfl⟩
  | cons k cs ih =>
    obtain ⟨hshell, hchan⟩ := ih (f k u)
    refine ⟨hshell.trans (hf k u).shell, fun c hc => ?_⟩
    rw [List.mem_cons, not_or] at hc
    exact (hchan c hc.2).trans ((hf k u).others c hc.1)

theorem foldl_works_chan {f : Chan → Device → Device} (hf : ∀ c u, Works c u (f c u)) {cs : List Chan} (hcs : cs.Nodup)
    (hc : c ∈ cs) (u : Device) : ∃ w : Device, w.shell = u.shell ∧ w.chan c = u.chan c ∧
      (cs.foldl (fun u c => f c u) u).chan c = (f c w).chan c := by
  obtain ⟨before, after, rfl⟩ := List.append_of_mem hc
  rw [List.nodup_middle, List.nodup_cons, List.mem_append, not_or] at hcs
  obtain ⟨hshell, hchan⟩ := foldl_works hf before u
  refine ⟨before.foldl (fun u c => f c u) u, hshell, hchan c hcs.1.1, ?_⟩
  rw [List.foldl_append, List.foldl_cons]
  exact (foldl_works hf after _).2 c hcs.1.2

/-- An acquisition that a start of its target brings to its eighth interval in a row declares lock; any other goes on. -/
theorem Device.referredGen_lock {a : Acquisition} (h : (v.chan c).gen.state = .acquire a)
    (hl : a.target = src ∧ 8 ≤ a.nextRun (withinBand (v.chan c).settings.system interval)) :
    (v.referredGen c src interval).1.state = .settled (.locked src) := by
  rw [Device.referredGen, Generator.referred_acquire h]
  dsimp only
  rw [if_pos hl.1, if_pos hl.2]

theorem Device.referredGen_goesOn {a : Acquisition} (h : (v.chan c).gen.state = .acquire a)
    (hl : ¬ (a.target = src ∧ 8 ≤ a.nextRun (withinBand (v.chan c).settings.system interval))) :
    ∃ a', (v.referredGen c src interval).1.state = .acquire a' := by
  rw [Device.referredGen, Generator.referred_acquire h]
  dsimp only
  by_cases ht : a.target = src
  · rw [if_pos ht, if_neg fun h8 => hl ⟨ht, h8⟩]
    exact ⟨_, rfl⟩
  · rw [if_neg ht]
    exact ⟨_, rfl⟩

theorem Device.framed_dropLog (v : Device) (c : Chan) (src : RefSource) (interval : Option Ticks) :
    (v.framed c src interval).dropLog = v.dropLog := by
  unfold Device.framed Device.framedIf
  split
  · exact Device.outputFrame_dropLog ..
  · rfl

theorem Device.referenceStart_dropLog (c : Chan) (src : RefSource) (interval : Option Ticks) (v : Device) :
    (v.referenceStart c src interval).dropLog = v.dropLog := by
  have hframed := v.framed_dropLog c src interval
  match h : (v.chan c).gen.state with
  | .settled .free => rw [Device.referenceStart_free h, hframed]
  | .settled (.locked x) => rw [Device.referenceStart_locked h, hframed]
  | .settled (.holdover x) =>
    by_cases hx : x = src
    · subst hx
      rw [Device.referenceStart_reacquire h]
      exact Device.raise_dropLog ..
    · rw [Device.referenceStart_holdover h hx, hframed]
  | .acquire a =>
    rw [Device.referenceStart_acquire h]
    dsimp only
    split
    · split
      · rw [Device.settleTiming_dropLog, Device.raise_dropLog, hframed]
      · rw [Device.raise_dropLog, hframed]
    · exact hframed

theorem Device.foldl_referenceStart_dropLog (cs : List Chan) (src : RefSource) (interval : Option Ticks) (v : Device) :
    (cs.foldl (fun v c => v.referenceStart c src interval) v).dropLog = v.dropLog := by
  induction cs generalizing v with
  | nil => rfl
  | cons c cs ih => exact (ih _).trans (Device.referenceStart_dropLog ..)

theorem familyOf_some (i : Nat) :
    (537300 ≤ i ∧ i ≤ 542700 → familyOf (some i) = .f50) ∧
    (448198 ≤ i ∧ i ≤ 452702 → familyOf (some i) = .f5994) ∧
    (i < 448198 ∨ (452702 < i ∧ i < 537300) ∨ 542700 < i → familyOf (some i) = .none) := by
  have h50 : System.s625.inBand i = decide (537300 ≤ i ∧ i ≤ 542700) := (Bool.decide_and ..).symm
  have h59 : System.s525.inBand i = decide (448198 ≤ i ∧ i ≤ 452702) := (Bool.decide_and ..).symm
  unfold familyOf
  dsimp only
  rw [h50, h59]
  refine ⟨fun h => ?_, fun h => ?_, fun h => ?_⟩
  · rw [decide_eq_true h]
    rfl
  · rw [decide_eq_true h, decide_eq_false (by omega)]
    rfl
  · rw [decide_eq_false (by omega), decide_eq_false (by omega)]
    rfl

theorem due_house_iff (d : Device) : d.due .house = true ↔ ∃ last, d.lastHouse = some last ∧ last + 810000 ≤ d.now := by
  have hdue : d.due .house = d.lastHouse.any fun last => decide (last + 810000 ≤ d.now) := rfl
  rw [hdue, Option.any_eq_true]
  exact exists_congr fun last => and_congr_right fun _ => decide_eq_true_iff

/-- What a house frame start makes of one channel, by its generator. -/
theorem Device.houseStart_chan (d : Device) (c : Chan) :
    let ch := d.chan c
    let interval := d.lastHouse.map (d.now - ·)
    let x := (d.referenceStart c .house interval).chan c
    (ch.gen.state = .settled .free ∨ ch.gen.state = .settled (.locked .input) ∨
        ch.gen.state = .settled (.holdover .input) → x = ch) ∧
    (let referred := ch.gen.referred ch.settings.system .house interval d.now
    let frame := referred.2 && decide (ch.gen.lastOut + ch.settings.system.guard ≤ d.now)
    let begun := { ch with gen := referred.1 }
    x = (if frame then ((d.setChan c begun).outputFrame c).chan c else begun) ∧
    x.gen = { referred.1 with lastOut := if frame then d.now else ch.gen.lastOut }) ∧
    (let inBand := d.lastHouse.any fun last =>
      decide (ch.settings.system.bandLow ≤ d.now - last ∧ d.now - last ≤ ch.settings.system.bandHigh)
    (ch.gen.state = .settled (.locked .house) → x.gen =
      { ch.gen with
        kept := if inBand then interval else ch.gen.kept
        lastOut := if ch.gen.lastOut + ch.settings.system.guard ≤ d.now then d.now else ch.gen.lastOut }) ∧
    (ch.gen.state = .settled (.holdover .house) → x = { ch with
      gen := { ch.gen with state := .acquire ⟨false, .house, .holdover .house, ch.gen.kept, 1, d.now, true⟩ } }) ∧
    (∀ a, ch.gen.state = .acquire a → a.target = .house → a.prior ≠ .locked .house →
      let run := if a.seen && inBand then a.run + 1 else 1
      (run < 8 → x = { ch with gen := { ch.gen with state := .acquire { a with run := run, seen := true } } }) ∧
      (8 ≤ run → x.gen.state = .settled (.locked .house) ∧ x.gen.kept = interval))) := by
  intro ch interval x
  have hquiet : ∀ {g : Generator}, d.referredGen c .house interval = (g, false) → x = { ch with gen := g } :=
    fun h => Device.referenceStart_chan_quiet h
  have hgen := d.referenceStart_chan_gen c .house interval
  refine ⟨fun hidle => ?_, ⟨d.referenceStart_chan_frame c .house interval, hgen⟩, ?_⟩
  · have hnone : d.referredGen c .house interval = (ch.gen, false) := by
      obtain h | h | h := hidle
      · exact Generator.referred_free h ..
      · exact (Generator.referred_locked h ..).trans (if_neg (by decide))
      · exact (Generator.referred_holdover h ..).trans (if_neg (by decide))
    exact hquiet hnone
  · intro inBand
    have hband : withinBand ch.settings.system interval = inBand := by
      rw [withinBand_eq]
      exact Option.any_map ..
    refine ⟨fun h => ?_, fun h => hquiet ((Generator.referred_holdover h ..).trans (if_pos rfl)), fun a h ht hp => ?_⟩
    · have hreferred : d.referredGen c .house interval =
          ({ ch.gen with kept := if inBand then interval else ch.gen.kept }, true) :=
        hband ▸ (Generator.referred_locked h ..).trans (if_pos rfl)
      refine hgen.trans ?_
      rw [Device.framesAt, hreferred]
      simp only [Bool.true_and, decide_eq_true_iff]
      rfl
    · intro run
      have hfollows : decide (a.prior = .locked .house) = false := decide_eq_false hp
      have hrun : a.nextRun (withinBand ch.settings.system interval) = run := by
        rw [hband]
        rfl
      have hreferred := Generator.referred_acquire h ch.settings.system .house interval d.now
      dsimp only at hreferred
      rw [if_pos ht, hrun, hfollows] at hreferred
      refine ⟨fun hlt => hquiet (hreferred.trans (if_neg (Nat.not_le.2 hlt))), fun hge => ?_⟩
      rw [if_pos hge] at hreferred
      have hlocked : d.referredGen c .house interval = _ := hreferred
      rw [hlocked] at hgen
      exact ⟨congrArg Generator.state hgen, congrArg Generator.kept hgen⟩

/-- Settles O51: the timeout, a reference frame start on a channel, and the house frame start on the four in turn. -/
theorem houseStartSetsFamilyAndLocks : Obligations.HouseStartSetsFamilyAndLocks := by
  intro s t hq d
  have hrow : ∀ {d' : Device}, d.expire .house = d' → exec (.houseFamilyTimeout t) s = .next { s with dev := d' } := fun h =>
    (State.onEvent_of_quiet hq t (Device.expire .house) (by unfold Device.expire; split <;> rfl)).trans
      (congrArg (fun d' => Host.Outcome.next { s with dev := d' }) h)
  refine ⟨fun last hlast hpast => hrow (Device.expire_of_due ((due_house_iff d).2 ⟨last, hlast, hpast⟩)),
    fun hnot => hrow (Device.expire_of_not_due (Bool.eq_false_iff.2 fun hd => ?_)), fun v c src interval => ?_, ?_⟩
  · obtain ⟨last, hlast, hpast⟩ := (due_house_iff d).1 hd
    exact Nat.not_le.2 (hnot last hlast) hpast
  · intro ch referred begun framed started
    have hframed : v.framed c src interval = framed := rfl
    refine ⟨fun hg => Device.referenceStart_reacquire hg, fun a hg hlocked => ?_, fun hhold hacquire => ?_⟩
    · intro told
      by_cases hl : a.target = src ∧ 8 ≤ a.nextRun (withinBand ch.settings.system interval)
      · have hstart : started = if a.commanded then told.settleTiming c .lock else told :=
          (Device.referenceStart_acquire hg).trans (if_pos hl)
        refine ⟨fun hauto => hstart.trans (if_neg (by rw [hauto]; decide)), fun tag hcommanded hfit hmem =>
          (hstart.trans (if_pos hcommanded)).trans (Device.settleTiming_of_lock hfit hmem ?_)⟩
        exact (congrArg Generator.state (v.framedIf_gen c ..)).trans hlocked
      · obtain ⟨a', ha'⟩ := Device.referredGen_goesOn (interval := interval) hg hl
        cases ha'.symm.trans hlocked
    · match h : ch.gen.state with
      | .settled .free => exact Device.referenceStart_free h
      | .settled (.locked x) => exact Device.referenceStart_locked h
      | .settled (.holdover x) => exact Device.referenceStart_holdover h fun e => hhold (e ▸ h)
      | .acquire a =>
        refine (Device.referenceStart_acquire h).trans (if_neg fun hl => ?_)
        obtain ⟨a', ha'⟩ := hacquire a h
        cases ha'.symm.trans (Device.referredGen_lock h hl)
  · let interval := d.lastHouse.map (d.now - ·)
    let d0 : Device := { d with houseFamily := familyOf interval, lastHouse := some d.now }
    let started := ([0, 1, 2, 3] : List Chan).foldl (fun v c => v.referenceStart c .house interval) d0
    have hworks : ∀ c u, Works c u (Device.referenceStart c .house interval u) := fun c u => works_referenceStart ..
    obtain ⟨hshell, -⟩ := foldl_works hworks [0, 1, 2, 3] d0
    have hfamily : started.houseFamily = familyOf interval := congrArg Shell.houseFamily hshell
    have hexec : exec (.houseFrameStart t) s = .next { s with dev := started } :=
      State.onEvent_of_quiet hq t Device.houseStart (congrArg Shell.fifo hshell)
    have hchan : ∀ c, started.chan c = (d.referenceStart c .house interval).chan c := fun c => by
      obtain ⟨w, hw, hwc, h⟩ := foldl_works_chan hworks (cs := [0, 1, 2, 3]) (by decide) (c := c) (by fin_cases c <;> simp) d0
      exact h.trans (Device.referenceStart_chan_congr hwc (congrArg Shell.now hw)
        (Device.cueFreeze_congr (congrArg Shell.cues hw) (congrArg Shell.cueOutside hw) c))
    refine ⟨_, hexec, congrArg Shell.lastHouse hshell, congrArg Shell.profiles hshell, ?_, congrArg Shell.cues hshell,
      Device.foldl_referenceStart_dropLog .., fun hnone => ?_, fun last hlast => ?_, fun c => ?_⟩
    · dsimp only
      rw [hfamily]
    · exact hfamily.trans (congrArg (fun last : Option Ticks => familyOf (last.map (d.now - ·))) hnone)
    · have hsome : started.houseFamily = familyOf (some (d.now - last)) :=
        hfamily.trans (congrArg (fun last : Option Ticks => familyOf (last.map (d.now - ·))) hlast)
      dsimp only
      rw [hsome]
      exact familyOf_some _
    · rw [hchan c]
      exact Device.houseStart_chan d c

end Sys2Proof.Machine
end


section
/-! PROOFS. The field start that takes its field in (R5 to R9, R17, R32, R43, R83, R101, R103, R124). -/

namespace Sys2Proof.Machine

variable {s : State} {d e : Device} {c : Chan} {ch : Channel} {label : Label}

/-! ## What a field start finds and makes -/

section Start

variable (ch : Channel) (d : Device) (c : Chan) (label : Label)

/-- The count of the field. -/
def Channel.startCount : Option Count := labelCount ch.settings label

/-- The plans as the field finds them: swapped where a commit is pending (R32). -/
def Channel.startReader : Reader := if d.isPending .commit c then ch.reader.swap else ch.reader

/-- The selection for the field (R33). -/
def Channel.startSelection : Option Selection := (ch.startReader d c).lookup (ch.startCount label)

/-- The profile asked for (R43). -/
def Channel.startRequested : Nat := ((ch.startSelection d c label).map (·.profile)).getD ch.settings.defaultProfile

/-- The context of the field: kept, or reloaded where it is empty, the id changes or a refresh is pending (R43). -/
def Channel.startContext : Context :=
  match ch.context with
  | some x =>
    if x.requested = ch.startRequested d c label ∧ d.isPending .refresh c = false then x
    else reloadContext d.profiles ch.settings (ch.startRequested d c label)
  | none => reloadContext d.profiles ch.settings (ch.startRequested d c label)

/-- The forced phase of the field (R24). -/
def Channel.startPhase : Option ForcedPhase :=
  forcedPhase (ch.startContext d c label).params (ch.startCount label) (ch.startSelection d c label) ch.reader.phaseMemory

/-- The tracker told of a change of mode (R82). -/
def Channel.startTold : Tracker := ch.tracker.told ch.context (some (ch.startContext d c label)) (ch.startPhase d c label)

/-- Whether the field selects another entry that is flagged as an edit (R35). -/
def Channel.startPlanEdit : Bool :=
  (ch.startCount label).isSome && (ch.startSelection d c label).any fun x =>
    x.edit && decide ((ch.startReader d c).selection.map (·.startCount) ≠ some x.startCount)

/-- Whether the field begins an edit (R7). -/
def Channel.startEdited : Bool :=
  ch.intake.discard || jumpTest ch.reader.lastCount (ch.startCount label) ||
    decide (ch.intake.prevIdentity = some label.identity) || ch.startPlanEdit d c label || ch.intake.editMark

/-- The reason of the edit, the first that holds (R7). -/
def Channel.startReason : EditReason :=
  if ch.intake.discard then .fieldDiscarded
  else if jumpTest ch.reader.lastCount (ch.startCount label) then .tcJump
  else if ch.intake.prevIdentity = some label.identity then .parityRepeat
  else if ch.startPlanEdit d c label then .planMark
  else .cueMark

/-- The ring and the tracker after the edit, if there is one (R4, R8, R83). -/
def Channel.startMarked : Channel :=
  let room := if 5 ≤ ch.intake.ring.length then ch.intake.ring.tail else ch.intake.ring
  { ch with
    intake := { ch.intake with
      ring := if ch.startEdited d c label then room.map (fun f => { f with stale := true }) else room }
    tracker := if ch.startEdited d c label then (ch.startTold d c label).restarted else ch.startTold d c label }

/-- The ring, the tracker and the window memory after the pending flush, if there is one (R103). -/
def Channel.startFlushed : Channel :=
  match d.flushPending c with
  | some asked => (ch.startMarked d c label).flushed asked
  | none => ch.startMarked d c label

/-- The concealment source of the field (R53). -/
def Channel.startSource : ConcealSource :=
  if (ch.startContext d c label).params.conceal = false then .none
  else if (ch.startFlushed d c label).intake.ring.dropLast.getLast?.any
      (fun p => !p.stale && decide (p.identity = label.identity)) then .previousFrame
  else .lineAbove

/-- The channel with the field in intake, before the reference frame start that the field is (R3, R6, R9, R101). -/
def Channel.startEntered (now : Ticks) : Channel :=
  { ch with
    intake :=
      { ch.intake with
        field := some ⟨0, ch.startSource d c label, [], 0, false, [], false⟩
        ring := (ch.startFlushed d c label).intake.ring ++
          [⟨ch.intake.nextSeq, label.identity, (ch.startCount label).map (·.count), false,
            (ch.startFlushed d c label).recon.windowMemory, false, ch.startPhase d c label, ch.startContext d c label, []⟩]
        nextSeq := ch.intake.nextSeq + 1
        discard := false
        prevIdentity := some label.identity
        editMark := false
        timeout := some (now + ch.settings.system.lossTime) }
    reader := { ch.startReader d c with
      selection := ch.startSelection d c label
      lastCount := ch.startCount label
      phaseMemory := ch.startPhase d c label }
    context := some (ch.startContext d c label)
    tracker := (ch.startFlushed d c label).tracker
    recon := { ch.recon with
      windowMemory := (ch.startFlushed d c label).recon.windowMemory.bind fun w =>
        if w.remaining ≤ 1 then none else some { w with remaining := w.remaining - 1 } } }

/-- The notices and replies of the steps of the field start, in order (R8, R32, R48, R82, R83, R84, R106). -/
def Channel.startNotified (u : Device) : Device :=
  let told := ch.startTold d c label
  let marked := ch.startMarked d c label
  let u := d.endsPending .commit c none (.committed ch.reader.staged.entries.length) u
  let u := (d.endsPending .refresh c none .none u).cadenceTold c ch.tracker told .forced
  let u := if ch.startEdited d c label then
      (u.cadenceTold c told marked.tracker .edit).raise (.edit c)
        (.edit (ch.startReason d c label) ((ch.startCount label).map (·.count)))
    else u
  match d.flushPending c with
  | some asked => d.endsPending .flush c (some (marked.flushScope asked)) .none
      (u.cadenceTold c marked.tracker (ch.startFlushed d c label).tracker .flush)
  | none => u

end Start

/-! ## The steps -/

theorem Reader.lookup_with_lastCount (r : Reader) (k count : Option Count) :
    ({ r with lastCount := k } : Reader).lookup count = r.lookup count := by
  cases count <;> rfl

/-- Where the context is not reloaded it is there and stays (R43). -/
theorem Channel.startContext_eq (ch : Channel) (d : Device) (c : Chan) (label : Label) :
    (if reloads ch.context (ch.startRequested d c label) (d.isPending .refresh c) then
      some (reloadContext d.profiles ch.settings (ch.startRequested d c label)) else ch.context) =
      some (ch.startContext d c label) := by
  unfold Channel.startContext reloads
  cases h : ch.context with
  | none => rfl
  | some x =>
    by_cases hx : x.requested = ch.startRequested d c label <;> cases d.isPending .refresh c <;> simp [hx]

theorem Channel.startReader_phaseMemory (ch : Channel) (d : Device) (c : Chan) :
    (ch.startReader d c).phaseMemory = ch.reader.phaseMemory := by
  unfold Channel.startReader
  split <;> rfl

theorem Channel.planMark_eq (ch : Channel) (d : Device) (c : Chan) (label : Label) :
    planMark (ch.startCount label) (ch.startReader d c).selection (ch.startSelection d c label) =
      ch.startPlanEdit d c label := by
  unfold planMark Channel.startPlanEdit
  cases ch.startCount label <;> cases ch.startSelection d c label <;> rfl

/-- The reason is there when there is an edit (R7). -/
theorem editReason_eq (discard jump parity plan cue : Bool) : editReason discard jump parity plan cue =
    if discard || jump || parity || plan || cue then
      some (if discard then .fieldDiscarded else if jump then .tcJump else if parity then .parityRepeat
        else if plan then .planMark else .cueMark)
    else none := by
  cases discard <;> cases jump <;> cases parity <;> cases plan <;> cases cue <;> rfl

theorem concealSourceOf_eq (slot : Slot) (prev2 : Option Slot) : concealSourceOf slot prev2 =
    if slot.context.params.conceal = false then .none
    else if prev2.any (fun p => !p.stale && decide (p.identity = slot.identity)) then .previousFrame
    else .lineAbove := by
  unfold concealSourceOf cleanField
  cases prev2 with
  | none => simp
  | some p => cases hs : p.stale <;> simp [Option.filter, hs]

/-- What a flush changes of a channel depends on its ring and its tracker alone. -/
theorem Channel.flushed_eq (ch : Channel) (asked : FlushScope) : ch.flushed asked =
    { ch with
      intake := { ch.intake with
        ring := if (flushWindow asked ch.tracker.cadence).isSome then ch.intake.ring
          else ch.intake.ring.map fun f => { f with stale := true } }
      recon := { ch.recon with windowMemory := (flushWindow asked ch.tracker.cadence).map fun r => ⟨r, 2⟩ }
      tracker := if (flushWindow asked ch.tracker.cadence).isSome then ch.tracker else ch.tracker.cleared } := by
  unfold Channel.flushed
  cases flushWindow asked ch.tracker.cadence <;> rfl

/-- The field joins the ring of a channel with a context (steps 8 and 9 of R6). -/
theorem Channel.enterField_of_context {x : Context} (h : ch.context = some x) (seq : Seq) (identity : Identity)
    (count : Option Count) : ch.enterField seq identity count =
      { ch with
        intake :=
          { ch.intake with
            ring := ch.intake.ring ++
              [⟨seq, identity, count.map (·.count), false, ch.recon.windowMemory, false, ch.reader.phaseMemory, x, []⟩]
            editMark := false
            prevIdentity := some identity
            field := some ⟨0, if x.params.conceal = false then .none
              else if ch.intake.ring.dropLast.getLast?.any (fun p => !p.stale && decide (p.identity = identity)) then
                .previousFrame
              else .lineAbove, [], 0, false, [], false⟩ }
        recon := { ch.recon with windowMemory := spendWindow ch.recon.windowMemory } } := by
  unfold Channel.enterField
  rw [h]
  dsimp only
  rw [concealSourceOf_eq]
  simp only [secondPreviousField, List.dropLast_concat, newSlot, InField.begin]
  rfl

/-- The notices and replies of a field start write no channel. -/
theorem Channel.startNotified_setChan (ch : Channel) (d : Device) (c : Chan) (label : Label) (u : Device) (x : Channel) :
    ch.startNotified d c label (u.setChan c x) = (ch.startNotified d c label u).setChan c x := by
  unfold Channel.startNotified
  dsimp only
  cases ch.startEdited d c label <;> cases d.flushPending c <;>
    simp only [Bool.false_eq_true, if_false, if_true, Device.endsPending_setChan, Device.cadenceTold_setChan,
      Device.raise_setChan]

/-- A field start that takes its field in, on a channel that the device does not yet hold. -/
theorem Device.takeIn_eq_start (ht : (d.ops.map (·.tag)).Nodup) (ho : e.ops = d.ops) (hp : e.profiles = d.profiles) :
    (e.setChan c ch).takeIn c label =
      ((ch.startNotified d c label e).setChan c (ch.startEntered d c label e.now)).inputStart c := by
  have hops : (e.setChan c ch).ops = d.ops := (Device.setChan_ops ..).trans ho
  have hpo : ∀ k, (e.setChan c ch).pendingOp k c = d.pendingOp k c := fun k => Device.pendingOp_congr hops k c
  have hip : ∀ k, (e.setChan c ch).isPending k c = d.isPending k c := fun k => congrArg Option.isSome (hpo k)
  have hfp : (e.setChan c ch).flushPending c = d.flushPending c := by rw [Device.flushPending, Device.flushPending, hpo]
  have hep : ∀ k p r u, (e.setChan c ch).endsPending k c p r u = d.endsPending k c p r u := fun k p r u =>
    Device.endsPending_congr (hpo k) p r u
  have hpr : (e.setChan c ch).profiles = d.profiles := hp
  have h := Device.takeIn_eq (d := e.setChan c ch) (by rw [hops]; exact ht) c label
  simp only [hip, hfp, hep, hpr, Device.chan_setChan_self, Reader.lookup_with_lastCount] at h
  have hcount : labelCount ch.settings label = ch.startCount label := rfl
  have hreader : (if d.isPending .commit c then ch.reader.swap else ch.reader) = ch.startReader d c := rfl
  have hselection : (ch.startReader d c).lookup (ch.startCount label) = ch.startSelection d c label := rfl
  have hrequested : requestedId ch.settings (ch.startSelection d c label) = ch.startRequested d c label := rfl
  rw [hcount, hreader] at h
  rw [hselection, hrequested, Channel.startContext_eq, Channel.startReader_phaseMemory, Channel.planMark_eq, editReason_eq] at h
  have hphase : ((some (ch.startContext d c label)).bind fun x => forcedPhase x.params (ch.startCount label)
      (ch.startSelection d c label) ch.reader.phaseMemory) = ch.startPhase d c label := rfl
  have htold : ch.tracker.told ch.context (some (ch.startContext d c label)) (ch.startPhase d c label) =
      ch.startTold d c label := rfl
  rw [hphase] at h
  rw [htold] at h
  have hreason : (if ch.intake.discard then EditReason.fieldDiscarded
      else if jumpTest ch.reader.lastCount (ch.startCount label) then .tcJump
      else if decide (ch.intake.prevIdentity = some label.identity) then .parityRepeat
      else if ch.startPlanEdit d c label then .planMark else .cueMark) = ch.startReason d c label := by
    simp only [Channel.startReason, decide_eq_true_eq]
  have hedited : (ch.intake.discard || jumpTest ch.reader.lastCount (ch.startCount label) ||
      decide (ch.intake.prevIdentity = some label.identity) || ch.startPlanEdit d c label || ch.intake.editMark) =
      ch.startEdited d c label := rfl
  rw [hreason, hedited] at h
  refine h.trans (congrArg (Device.inputStart c) ?_)
  rw [← Device.setChan_setChan (d := ch.startNotified d c label e) (a := ch), ← Channel.startNotified_setChan]
  cases hb : ch.startEdited d c label with
  | false =>
    have hd : ch.intake.discard = false := by
      simp only [Channel.startEdited, Bool.or_eq_false_iff] at hb
      obtain ⟨⟨⟨⟨hdiscard, -⟩, -⟩, -⟩, -⟩ := hb
      exact hdiscard
    have hroom : ∀ dl, ch.intake.takeRoom dl = { ch.intake.takeRoom dl with discard := false } := fun dl =>
      congrArg (fun b => { ch.intake.takeRoom dl with discard := b }) hd
    rw [hroom]
    simp only [Channel.startNotified, Channel.startEntered, Channel.startSource, Channel.startFlushed, Channel.startMarked,
      Channel.flushScope, hb, Bool.false_eq_true, if_false, Option.isSome_none]
    cases d.flushPending c with
    | none =>
      dsimp only
      rw [Channel.enterField_of_context rfl]
      rfl
    | some asked =>
      simp only [Channel.flushed_eq]
      rw [Channel.enterField_of_context rfl]
      rfl
  | true =>
    simp only [Channel.startNotified, Channel.startEntered, Channel.startSource, Channel.startFlushed, Channel.startMarked,
      Channel.flushScope, hb, if_true, Option.isSome_some, Tracker.cleared_eq]
    cases d.flushPending c with
    | none =>
      dsimp only
      rw [Channel.enterField_of_context rfl]
      rfl
    | some asked =>
      simp only [Channel.flushed_eq]
      rw [Channel.enterField_of_context rfl]
      rfl

/-! ## The reference frame start that the field is -/

/-- A reference frame start is its output frame start, at most one notice, and at most the end of the acquisition. -/
theorem Device.referenceStart_cases (c : Chan) (src : RefSource) (interval : Option Ticks) (v : Device) :
    ∃ w, (w = v.framed c src interval ∨ ∃ detail, w = (v.framed c src interval).raise (.timing c) detail) ∧
      (v.referenceStart c src interval = w ∨ v.referenceStart c src interval = w.settleTiming c .lock) := by
  match h : (v.chan c).gen.state with
  | .settled .free => exact ⟨_, .inl rfl, .inl (Device.referenceStart_free h)⟩
  | .settled (.locked x) => exact ⟨_, .inl rfl, .inl (Device.referenceStart_locked h)⟩
  | .settled (.holdover x) =>
    by_cases hx : x = src
    · subst hx
      have hframed : v.framed c x interval = v.referredTo c (v.referredGen c x interval).1 := by
        rw [Device.framed, Device.referredGen, Generator.referred_holdover h, if_pos rfl, Device.framedIf_false]
      exact ⟨_, .inr ⟨_, rfl⟩, .inl ((Device.referenceStart_reacquire h).trans
        (congrArg (Device.raise (.timing c) (.timing x.source .acquire .reacquire)) hframed.symm))⟩
    · exact ⟨_, .inl rfl, .inl (Device.referenceStart_holdover h hx)⟩
  | .acquire a =>
    rw [Device.referenceStart_acquire h]
    dsimp only
    split
    · split
      · exact ⟨_, .inr ⟨_, rfl⟩, .inr rfl⟩
      · exact ⟨_, .inr ⟨_, rfl⟩, .inl rfl⟩
    · exact ⟨_, .inl rfl, .inl rfl⟩

theorem Device.outputFrame_overflow (c : Chan) (d : Device) : (d.outputFrame c).overflow = d.overflow := by
  rw [Device.outputFrame_eq]
  dsimp only
  cases (d.chan c).state with
  | off | ready | holding => rfl
  | running =>
    dsimp only
    split
    · exact Device.raise_overflow ..
    · rfl
  | stopping => exact (Device.endsPending_log ..).2.trans (Device.cadenceTold_dropLog ..).2

theorem Device.referenceStart_overflow (c : Chan) (src : RefSource) (interval : Option Ticks) (v : Device) :
    (v.referenceStart c src interval).overflow = v.overflow := by
  have hframed : (v.framed c src interval).overflow = v.overflow := by
    unfold Device.framed Device.framedIf
    split
    · exact Device.outputFrame_overflow ..
    · rfl
  have hsettled : ∀ w : Device, (w.settleTiming c .lock).overflow = w.overflow := by
    intro w
    unfold Device.settleTiming
    split
    · exact Device.settleOp_overflow ..
    · rfl
  obtain ⟨w, hw, h⟩ := Device.referenceStart_cases c src interval v
  have hw' : w.overflow = v.overflow := by
    obtain rfl | ⟨detail, rfl⟩ := hw
    · exact hframed
    · exact (Device.raise_overflow ..).trans hframed
  obtain h | h := h
  · rw [h, hw']
  · rw [h, hsettled, hw']

theorem Device.isPending_endsPending_of_false {u : Device} {k : OpName} (h : u.isPending k c = false) (k' : OpName)
    (p : Option FlushDone) (r : OpResult) : (d.endsPending k' c p r u).isPending k c = false := by
  unfold Device.endsPending
  split
  · exact Device.isPending_settleOp_of_false h _ _ (by decide) _ _
  · exact h

/-- A reference frame start makes nothing pending. -/
theorem Device.isPending_referenceStart_of_false {k : OpName} (h : d.isPending k c = false) (src : RefSource)
    (interval : Option Ticks) : (d.referenceStart c src interval).isPending k c = false := by
  have hcongr : ∀ {u w : Device}, u.ops = w.ops → w.isPending k c = false → u.isPending k c = false := fun he hw =>
    (congrArg Option.isSome (Device.pendingOp_congr he k c)).trans hw
  have hframed : (d.framed c src interval).isPending k c = false := by
    unfold Device.framed Device.framedIf
    split
    · obtain ho | ⟨u, hu, ho⟩ := Device.outputFrame_ops c (d.referredTo c (d.referredGen c src interval).1)
      · exact hcongr ho h
      · rw [ho]
        exact Device.isPending_endsPending_of_false (hcongr hu h) ..
    · exact h
  obtain ⟨w, hw, hstart⟩ := Device.referenceStart_cases c src interval d
  have hw' : w.isPending k c = false := by
    obtain rfl | ⟨detail, rfl⟩ := hw
    · exact hframed
    · exact hcongr (Device.raise_ops ..) hframed
  obtain hstart | hstart := hstart
  · rw [hstart, hw']
  · rw [hstart]
    unfold Device.settleTiming
    split
    · exact Device.isPending_settleOp_of_false hw' _ _ (by decide) _ _
    · exact hw'

/-- The moment of the last field start is not read by what a reference frame start makes of a generator. -/
theorem Generator.referred_with_lastInput (g : Generator) (last : Option Ticks) (y : System) (src : RefSource)
    (interval : Option Ticks) (now : Ticks) : ({ g with lastInput := last } : Generator).referred y src interval now =
      ({ (g.referred y src interval now).1 with lastInput := last }, (g.referred y src interval now).2) := by
  unfold Generator.referred
  dsimp only
  split
  · rfl
  · split <;> rfl
  · split <;> rfl
  · split
    · split
      · split <;> rfl
      · split <;> rfl
    · rfl

theorem Device.inputStart_setChan (u : Device) (c : Chan) (ch : Channel) : (u.setChan c ch).inputStart c =
    (u.setChan c { ch with gen := { ch.gen with lastInput := some u.now } }).referenceStart c .input
      (ch.gen.lastInput.map (u.now - ·)) := by
  unfold Device.inputStart Device.modChan
  simp only [Device.chan_setChan_self, Device.setChan_setChan]
  rfl

theorem Channel.atFrame_running (h : ch.state = .running) (now : Ticks) (cueFreeze : Bool) :
    ch.atFrame now cueFreeze = ch.showing now (ch.runningFrame (ch.sync.freeze || cueFreeze)).1 := by
  rw [Channel.atFrame, h]

/-- A RUNNING channel after the reference frame start that its field is (R124, R126, R135). -/
theorem Device.inputStart_chan_running (hrun : ch.state = .running) (u : Device) (c : Chan) :
    ((u.setChan c ch).inputStart c).chan c =
      let referred := ch.gen.referred ch.settings.system .input (ch.gen.lastInput.map (u.now - ·)) u.now
      let frame := referred.2 && decide (ch.gen.lastOut + ch.settings.system.guard ≤ u.now)
      { ch with
        sync := if frame then (ch.runningFrame (ch.sync.freeze || u.cueFreeze c)).1 else ch.sync
        gen := { referred.1 with
          lastOut := if frame then u.now else ch.gen.lastOut
          lastInput := some u.now } } := by
  let v := u.setChan c { ch with gen := { ch.gen with lastInput := some u.now } }
  have hchan : v.chan c = { ch with gen := { ch.gen with lastInput := some u.now } } := Device.chan_setChan_self ..
  have hgen : v.referredGen c .input (ch.gen.lastInput.map (u.now - ·)) =
      ({ (ch.gen.referred ch.settings.system .input (ch.gen.lastInput.map (u.now - ·)) u.now).1 with
          lastInput := some u.now },
        (ch.gen.referred ch.settings.system .input (ch.gen.lastInput.map (u.now - ·)) u.now).2) := by
    rw [Device.referredGen, hchan]
    exact Generator.referred_with_lastInput ..
  have hlast : (ch.gen.referred ch.settings.system .input (ch.gen.lastInput.map (u.now - ·)) u.now).1.lastOut =
      ch.gen.lastOut := Generator.referred_lastOut ..
  have hcue : ∀ g, (v.referredTo c g).cueFreeze c = u.cueFreeze c := fun g =>
    (Device.cueFreeze_setChan ..).trans (Device.cueFreeze_setChan ..)
  rw [Device.inputStart_setChan, Device.referenceStart_chan_frame, Device.framesAt, hgen, hchan]
  generalize ch.gen.referred ch.settings.system .input (ch.gen.lastInput.map (u.now - ·)) u.now = referred at hlast ⊢
  have hnow : v.now = u.now := rfl
  dsimp only
  rw [hnow]
  cases referred.2 && decide (ch.gen.lastOut + ch.settings.system.guard ≤ u.now) with
  | false =>
    rw [← hlast]
    rfl
  | true =>
    rw [if_pos rfl, Device.outputFrame_chan, hcue, Device.referredTo, hchan, Device.chan_setChan_self]
    exact (Channel.atFrame_running (ch := { ch with gen := { referred.1 with lastInput := some u.now } }) hrun u.now
      (u.cueFreeze c)).trans rfl

/-! ## What is pending on the channel afterwards -/

theorem Device.isPending_contextStep_of_false {k : OpName} (h : d.isPending k c = false) (count : Option Count) :
    (d.contextStep c count).isPending k c = false := by
  obtain ⟨u, hu, hops⟩ := d.contextStep_ops c count
  rw [Device.isPending]
  cases ho : d.pendingOp .refresh c with
  | none =>
    rw [ho] at hops
    exact (congrArg Option.isSome (Device.pendingOp_congr hops k c)).trans h
  | some o =>
    rw [ho] at hops
    have hu' : u.isPending k c = false := (congrArg Option.isSome (Device.pendingOp_congr hu k c)).trans h
    exact (congrArg Option.isSome (Device.pendingOp_congr hops k c)).trans
      (Device.isPending_settleOp_of_false hu' _ _ (by decide) _ _)

theorem Device.isPending_inputStart_of_false {k : OpName} (h : d.isPending k c = false) :
    (d.inputStart c).isPending k c = false := by
  exact Device.isPending_referenceStart_of_false (d := d.modChan c fun ch => { ch with
    gen := { ch.gen with lastInput := some d.now } }) h _ _

/-- The commit, the refresh and the flush of a channel, settled one after another: none is pending afterwards. -/
theorem Device.isPending_settled (hfit : d.OpsFit) {x y z : Device} {count : Option Count} (hx : x.ops = d.ops)
    (hy : y.ops = (x.settleCommit c).ops) (hz : z.ops = (y.contextStep c count).ops) {k : OpName}
    (hk : k = .commit ∨ k = .refresh ∨ k = .flush) : (z.settleFlush c).isPending k c = false := by
  obtain ⟨hdistinct, hfits⟩ := hfit
  have htags : (x.ops.map (·.tag)).Nodup := hx ▸ hdistinct.1
  have hone : ∀ k, (x.pendingOps k c).length ≤ 1 := fun k => by
    rw [Device.pendingOps, hx]
    exact (hfits k c).1
  have hpending : ∀ {u w : Device}, u.ops = w.ops → ∀ k, u.pendingOps k c = w.pendingOps k c := fun h k => by
    rw [Device.pendingOps, h, Device.pendingOps]
  have hfalse : ∀ {u w : Device}, u.ops = w.ops → ∀ {k}, w.isPending k c = false → u.isPending k c = false := fun h _ hw =>
    (congrArg Option.isSome (Device.pendingOp_congr h _ c)).trans hw
  have hytags : (y.ops.map (·.tag)).Nodup := hy ▸ (x.settleCommit_tags c).nodup htags
  have hyone : ∀ k, k ≠ .commit → (y.pendingOps k c).length ≤ 1 := fun k hk => by
    rw [hpending hy, Device.pendingOps_settleCommit htags hk]
    exact hone k
  obtain rfl | rfl | rfl := hk
  · exact Device.isPending_settleFlush_of_false (hfalse hz (Device.isPending_contextStep_of_false
      (hfalse hy (Device.isPending_settleCommit (hone _))) count))
  · exact Device.isPending_settleFlush_of_false (hfalse hz (Device.isPending_contextStep (hyone _ (by decide)) count))
  · refine Device.isPending_settleFlush ?_
    rw [hpending hz, Device.pendingOps_contextStep hytags (by decide)]
    exact hyone _ (by decide)

/-- A field start that takes its field in leaves no commit, refresh or flush pending on the channel (R32, R48, R106). -/
theorem Device.isPending_takeIn (hfit : d.OpsFit) (he : e.ops = d.ops) (c : Chan) (label : Label) {k : OpName}
    (hk : k = .commit ∨ k = .refresh ∨ k = .flush) : (e.takeIn c label).isPending k c = false := by
  have hsteps : (e.takeInSteps c label).isPending k c = false := by
    unfold Device.takeInSteps
    extract_lets room count jump counted settled previous selected looked loaded intake reason
    have hx : counted.ops = d.ops := he
    have hz : (loaded.editStep c reason count).ops = (looked.contextStep c count).ops := Device.editStep_ops ..
    have hy : looked.ops = (counted.settleCommit c).ops := rfl
    exact Device.isPending_settled hfit hx hy hz hk
  rw [Device.takeIn_eq_steps]
  generalize e.takeInSteps c label = u at hsteps ⊢
  exact Device.isPending_inputStart_of_false hsteps

/-! ## The field start that takes its field in -/

/-- A channel that a field start finds, RUNNING again where it was HOLDING (R5, R137). -/
def Channel.resumed (ch : Channel) : Channel :=
  { ch with
    state := .running
    intake := { ch.intake with input := if ch.state = .holding then .normal else ch.intake.input }
    sync := if ch.state = .holding then { ch.sync with hold := 0, awaited := true } else ch.sync }

theorem Channel.startFlushed_resumed (ch : Channel) (d : Device) (c : Chan) (label : Label) :
    (ch.resumed.startFlushed d c label).intake.ring = (ch.startFlushed d c label).intake.ring ∧
    (ch.resumed.startFlushed d c label).recon.windowMemory = (ch.startFlushed d c label).recon.windowMemory ∧
    (ch.resumed.startFlushed d c label).tracker = (ch.startFlushed d c label).tracker := by
  unfold Channel.startFlushed
  cases d.flushPending c with
  | none => exact ⟨rfl, rfl, rfl⟩
  | some asked =>
    simp only [Channel.flushed_eq]
    exact ⟨rfl, rfl, rfl⟩

/-- The channel with the field in intake, from the blocks that the field start found. -/
theorem Channel.startEntered_resumed (ch : Channel) (d : Device) (c : Chan) (label : Label) (now : Ticks) :
    ch.resumed.startEntered d c label now =
      { ch.startEntered d c label now with
        state := .running
        intake := { (ch.startEntered d c label now).intake with
          input := if ch.state = .holding then .normal else ch.intake.input }
        sync := ch.resumed.sync } := by
  obtain ⟨hring, hwindow, htracker⟩ := ch.startFlushed_resumed d c label
  unfold Channel.startEntered Channel.startSource
  rw [hring, hwindow, htracker]
  rfl

theorem Channel.resumed_freeze (ch : Channel) : ch.resumed.sync.freeze = ch.sync.freeze := by
  unfold Channel.resumed
  dsimp only
  split <;> rfl

theorem Channel.startNotified_resumed (ch : Channel) (d : Device) (c : Chan) (label : Label) (u : Device) :
    ch.resumed.startNotified d c label u = ch.startNotified d c label u := by
  unfold Channel.startNotified
  rw [(ch.startFlushed_resumed d c label).2.2]
  rfl

/-- INPUT and RESTORED, where the field ends a loss (R17). -/
def Channel.startRestored (ch : Channel) (c : Chan) (u : Device) : Device :=
  if ch.state = .holding then u.raise (.input c) (.input .running .restored) else u

theorem Device.endHolding_eq (h : (d.chan c).state = .holding) :
    d.endHolding c = (d.raise (.input c) (.input .running .restored)).setChan c (d.chan c).resumed := by
  have hresumed : (d.chan c).resumed = { d.chan c with
      state := .running
      intake := { (d.chan c).intake with input := .normal }
      sync := { (d.chan c).sync with hold := 0, awaited := true } } := by
    simp only [Channel.resumed, if_pos h]
  rw [hresumed]
  exact Device.raise_setChan ..

theorem Channel.resumed_of_running (h : ch.state = .running) : ch.resumed = ch := by
  have hne : ¬ ch.state = .holding := by
    rw [h]
    decide
  simp only [Channel.resumed, if_neg hne, ← h]

/-- The device in which the field is taken in: INPUT is told and the channel is RUNNING again, where it was HOLDING. -/
theorem Device.fieldStart_eq_takeIn
    (hstate : ((d.chan c).state = .running ∧ (d.chan c).intake.field = none) ∨ (d.chan c).state = .holding)
    (hsystem : label.system = (d.chan c).settings.system) :
    d.fieldStart c label = (((d.chan c).startRestored c d).setChan c (d.chan c).resumed).takeIn c label := by
  obtain ⟨hrun, hfield⟩ | hhold := hstate
  · have hne : ¬ (d.chan c).state = .holding := by
      rw [hrun]
      decide
    rw [Device.fieldStart_of_running label hrun, Device.endField_of_none hfield, if_pos hsystem,
      Channel.resumed_of_running hrun, Channel.startRestored, if_neg hne, Device.setChan_chan_self]
  · rw [Device.fieldStart_of_holding label hhold, if_pos hsystem, Device.endHolding_eq hhold, Channel.startRestored,
      if_pos hhold]

theorem Device.endsPending_shell (d : Device) (k : OpName) (c : Chan) (p : Option FlushDone) (r : OpResult) (u : Device) :
    (d.endsPending k c p r u).shell = u.shell := by
  unfold Device.endsPending
  split
  · exact Device.settleOp_shell ..
  · rfl

/-- `w` follows from `u` by notices and replies alone: they reach neither the shell nor the log. -/
def Device.TellsOnly (u w : Device) : Prop := w.shell = u.shell ∧ w.dropLog = u.dropLog ∧ w.overflow = u.overflow

/-- The notices and replies of a field start leave the rest of the part and the log as they were. -/
theorem Channel.startNotified_keeps (ch : Channel) (d : Device) (c : Chan) (label : Label) (u : Device) :
    u.TellsOnly (ch.startNotified d c label u) := by
  have hends : ∀ k p r w, u.TellsOnly w → u.TellsOnly (d.endsPending k c p r w) := fun k p r w ⟨hs, hl, ho⟩ =>
    ⟨(Device.endsPending_shell ..).trans hs, (Device.endsPending_log ..).1.trans hl, (Device.endsPending_log ..).2.trans ho⟩
  have htold : ∀ x y r w, u.TellsOnly w → u.TellsOnly (w.cadenceTold c x y r) := fun x y r w ⟨hs, hl, ho⟩ =>
    ⟨(works_cadenceTold ..).shell.trans hs, (Device.cadenceTold_dropLog ..).1.trans hl,
      (Device.cadenceTold_dropLog ..).2.trans ho⟩
  have hraise : ∀ src detail w, u.TellsOnly w → u.TellsOnly (w.raise src detail) := fun src detail w ⟨hs, hl, ho⟩ =>
    ⟨(Device.raise_shell ..).trans hs, (Device.raise_dropLog ..).trans hl, (Device.raise_overflow ..).trans ho⟩
  have hloaded := htold ch.tracker (ch.startTold d c label) .forced _
    (hends .refresh none .none _ (hends .commit none (.committed ch.reader.staged.entries.length) u ⟨rfl, rfl, rfl⟩))
  unfold Channel.startNotified
  dsimp only
  cases ch.startEdited d c label with
  | false =>
    cases d.flushPending c with
    | none => exact hloaded
    | some asked => exact hends _ _ _ _ (htold _ _ _ _ hloaded)
  | true =>
    have hedited := hraise (.edit c) (.edit (ch.startReason d c label) ((ch.startCount label).map (·.count))) _
      (htold (ch.startTold d c label) (ch.startMarked d c label).tracker .edit _ hloaded)
    cases d.flushPending c with
    | none => exact hedited
    | some asked => exact hends _ _ _ _ (htold _ _ _ _ hedited)

theorem Channel.startRestored_setChan (ch : Channel) (c : Chan) (u : Device) (x : Channel) :
    ch.startRestored c (u.setChan c x) = (ch.startRestored c u).setChan c x := by
  unfold Channel.startRestored
  split
  · exact Device.raise_setChan ..
  · rfl

theorem Channel.startRestored_keeps (ch : Channel) (c : Chan) (u : Device) :
    u.TellsOnly (ch.startRestored c u) ∧ (ch.startRestored c u).ops = u.ops := by
  unfold Channel.startRestored
  split
  · exact ⟨⟨Device.raise_shell .., Device.raise_dropLog .., Device.raise_overflow ..⟩, Device.raise_ops ..⟩
  · exact ⟨⟨rfl, rfl, rfl⟩, rfl⟩

/-- Settles O44: the field is taken in on the resumed channel, block by block, and is then a reference frame start. -/
theorem fieldStartTakesFieldIn : Obligations.FieldStartTakesFieldIn := by
  intro s t c label hq hdistinct ch d y count reader selection requested reloaded context phase planEdit edited told room
    marked flushed older source sync referred frame reason notified hstate hsystem
  let e := ch.startRestored c d
  let w := ch.resumed.startNotified s.dev c label e
  let entered := ch.resumed.startEntered s.dev c label d.now
  obtain ⟨⟨heShell, heLog, heOver⟩, heOps⟩ := ch.startRestored_keeps c d
  obtain ⟨hwShell, hwLog, hwOver⟩ := ch.resumed.startNotified_keeps s.dev c label e
  have hnow : w.now = d.now := congrArg Shell.now (hwShell.trans heShell)
  have htakes : d.fieldStart c label = (e.setChan c ch.resumed).takeIn c label :=
    Device.fieldStart_eq_takeIn (d := d) hstate hsystem
  have hstart : d.fieldStart c label = (w.setChan c entered).inputStart c := by
    refine htakes.trans ((Device.takeIn_eq_start (d := s.dev) hdistinct.1 heOps (congrArg Shell.profiles heShell)).trans ?_)
    have heNow : e.now = d.now := congrArg Shell.now heShell
    rw [heNow]
  have hpending : s.dev.OpsFit → ∀ k : OpName, k = .commit ∨ k = .refresh ∨ k = .flush →
      (d.fieldStart c label).isPending k c = false := by
    intro hfit k hk
    rw [htakes]
    exact Device.isPending_takeIn (d := s.dev) (e := e.setChan c ch.resumed) hfit heOps c label hk
  have hlog : (d.fieldStart c label).dropLog = d.dropLog := by
    rw [hstart, Device.inputStart_setChan, Device.referenceStart_dropLog]
    exact hwLog.trans heLog
  have hover : (d.fieldStart c label).overflow = d.overflow := by
    rw [hstart, Device.inputStart_setChan, Device.referenceStart_overflow]
    exact hwOver.trans heOver
  have hcue : w.cueFreeze c = s.dev.cueFreeze c :=
    Device.cueFreeze_congr (congrArg Shell.cues (hwShell.trans heShell)) (congrArg Shell.cueOutside (hwShell.trans heShell)) c
  have hchan := Device.inputStart_chan_running (ch := entered) rfl w c
  have hentered : entered = _ := ch.startEntered_resumed s.dev c label d.now
  have hfreeze : entered.sync.freeze = ch.sync.freeze := ch.resumed_freeze
  rw [← hstart, hnow, hcue, hfreeze, hentered] at hchan
  refine ⟨_, exec_fieldStart hq t c label, ?_⟩
  refine ⟨(works_fieldStart c label d).keepsRest, hlog, hover, ?_, ?_, hpending⟩
  · exact hchan.trans rfl
  · have hfound : { entered with gen := { ch.gen with lastInput := some d.now } } =
        { (d.fieldStart c label).chan c with sync := sync, gen := { ch.gen with lastInput := some d.now } } := by
      rw [hchan, hentered]
      rfl
    have htold : ∀ x : Channel, w.setChan c x = notified (d.setChan c x) := by
      intro x
      have hpulled : w.setChan c x = ch.startNotified s.dev c label (ch.startRestored c (d.setChan c x)) := by
        rw [Channel.startRestored_setChan, Channel.startNotified_setChan, ← Channel.startNotified_resumed]
      exact hpulled
    refine hstart.trans ((Device.inputStart_setChan w c entered).trans ?_)
    rw [htold, hnow]
    exact congrArg (fun x => (notified (d.setChan c x)).referenceStart c .input (ch.gen.lastInput.map (d.now - ·))) hfound

end Sys2Proof.Machine
end


section
/-! PROOFS. The passing of a tick, and when each timer has run out (R15, R90, R125, R126, R129, R130, R159, R165, R182). -/

namespace Sys2Proof.Machine

variable {s : State} {d : Device} {c : Chan}

/-! ## The order of the timers -/

theorem insertTimer_perm (rank : Timer → Nat) (t : Timer) (ts : List Timer) : (insertTimer rank t ts).Perm (t :: ts) := by
  induction ts with
  | nil => exact .refl _
  | cons u rest ih =>
    unfold insertTimer
    split
    · exact .refl _
    · exact (ih.cons u).trans (.swap t u rest)

theorem orderTimers_perm (rank : Timer → Nat) (ts : List Timer) : (orderTimers rank ts).Perm ts := by
  induction ts with
  | nil => exact .refl _
  | cons t ts ih => exact (insertTimer_perm rank t (orderTimers rank ts)).trans (ih.cons t)

theorem allTimers_nodup : allTimers.Nodup := by decide

theorem mem_allTimers (k : Timer) : k ∈ allTimers := by
  have hc : ∀ c : Chan, c ∈ allChans := by decide
  cases k with
  | starting | gap | uplink | house => simp [allTimers]
  | fieldTimeout c | reconstruction c | outputFrame c | reference c | priorReference c | acquisition c =>
    simp [allTimers, hc c]

/-! ## The timers that have run out -/

theorem due_uplink_iff_sending (d : Device) : d.due .uplink = true ↔ ∃ frame since, d.uplink = .sending frame since ∧
    10 * frame.length * 27000000 ≤ (d.now - since) * d.lineRate := by
  cases h : d.uplink with
  | idle => simp [Device.due, h]
  | sending frame since =>
    rw [due_uplink_iff h]
    exact ⟨fun hdue => ⟨frame, since, rfl, hdue⟩, fun ⟨frame', since', he, hdue⟩ => by
      obtain ⟨rfl, rfl⟩ := Uplink.sending.inj he
      exact hdue⟩

theorem due_reconstruction_iff (d : Device) (c : Chan) : d.due (.reconstruction c) = true ↔ (d.chan c).recon.jobs ≠ [] ∧
    (d.chan c).recon.workStart + min (d.chan c).settings.system.workTime
      (Config.reconWork c.val (d.chan c).recon.workStart) ≤ d.now := by
  simp [Device.due]

/-- The output frame start of a generator that counts a period of its own (R126). -/
theorem due_outputFrame_of_some (h : d.phase ≠ .held) {p : Ticks}
    (hp : (d.chan c).gen.freePeriod (d.chan c).settings.system = some p) :
    d.due (.outputFrame c) = true ↔ (d.chan c).gen.lastOut + p ≤ d.now := by
  rw [due_outputFrame_iff h, hp]
  exact ⟨fun ⟨_, he, hle⟩ => Option.some.inj he ▸ hle, fun hle => ⟨p, rfl, hle⟩⟩

/-- A generator that follows a reference makes no output frame start by the clock (R126). -/
theorem due_outputFrame_of_none (h : d.phase ≠ .held)
    (hp : (d.chan c).gen.freePeriod (d.chan c).settings.system = none) : d.due (.outputFrame c) = false := by
  rw [← Bool.not_eq_true, due_outputFrame_iff h, hp]
  rintro ⟨_, he, _⟩
  cases he

/-- The period that a generator counts by itself, by its timing state (R126). -/
theorem Generator.freePeriod_of_settled {g : Generator} {x : Settled} (h : g.state = .settled x) (y : System) :
    (x = .free → g.freePeriod y = some y.period) ∧
    (∀ src, x = .holdover src → g.freePeriod y = some (g.kept.getD y.period)) ∧
    (∀ src, x = .locked src → g.freePeriod y = none) := by
  unfold Generator.freePeriod
  rw [h]
  exact ⟨fun hx => by rw [hx], fun _ hx => by rw [hx], fun _ hx => by rw [hx]⟩

/-- In an acquisition the period is that of the prior state (R129). -/
theorem Generator.freePeriod_of_acquire {g : Generator} {a : Acquisition} (h : g.state = .acquire a) (y : System) :
    (a.prior = .free → g.freePeriod y = some y.period) ∧
    (∀ src, a.prior = .holdover src → g.freePeriod y = some (a.priorKept.getD y.period)) ∧
    (∀ src, a.prior = .locked src → g.freePeriod y = none) := by
  unfold Generator.freePeriod
  rw [h]
  dsimp only
  exact ⟨fun hx => by rw [hx], fun _ hx => by rw [hx], fun _ hx => by rw [hx]⟩

/-! ## The tick -/

theorem Device.fireIfDue_of_not_due {k : Timer} (h : d.due k = false) : d.fireIfDue k = d :=
  if_neg (by rw [h]; decide)

theorem Device.fireIfDue_of_due {k : Timer} (h : d.due k = true) : d.fireIfDue k = (d.fire k).settle := if_pos h

theorem step_of_empty (h : s.pending = []) : step s = .next { s with dev := s.dev.tick } := by
  unfold step
  rw [h]

/-- The row of a timer that has run out, at a reading the clock has reached. -/
theorem State.onEvent_of_due {t : Ticks} {f : Device → Device} (h : s.dev.phase ≠ .held) (ht : s.dev.now = t) {k : Timer}
    (hdue : s.dev.due k = true) (hf : f s.dev = s.dev.fire k) :
    s.onEvent t f = .next { s with dev := s.dev.fireIfDue k } := by
  rw [State.onEvent_of_released h, Device.arrive_eq_self (Nat.le_of_eq ht.symm), hf, Device.fireIfDue_of_due hdue]

/-- Settles O2, by the timers of the part. -/
theorem emptyQueueTicks : Obligations.EmptyQueueTicks := by
  intro s hs d row silent
  let order := orderTimers (fun t => Config.timerRank d.now t.number) (allTimers.filter d.due)
  have horder : order.Perm (allTimers.filter d.due) := orderTimers_perm ..
  have hstep : step s = .next { s with dev := order.foldl Device.fireIfDue d } := step_of_empty hs
  have hsilent : ∀ c src, d.silent (d.lastReference c src) (d.chan c).settings.system.lossTime = true ↔ silent c src :=
    fun c src => Device.silent_iff ..
  refine ⟨fun hnone => ?_, ⟨order, ?_, fun k => ?_, hstep⟩, fun u k => Device.fireIfDue_of_not_due,
    fun u k hnow hphase hdue => ?_, due_starting_iff, due_gap_iff, due_uplink_iff_sending d, due_house_iff d,
    fun c => ⟨due_fieldTimeout_iff d c, fun hdue => ?_, fun hjobs hpast => ?_, fun hphase => ?_, ?_, ?_,
      due_acquisition_iff d c⟩⟩
  · have hempty : allTimers.filter d.due = [] := List.filter_eq_nil_iff.2 fun k _ => by rw [hnone k]; decide
    have hno : order = [] := by
      rw [← List.perm_nil, ← hempty]
      exact horder
    rw [hstep, hno]
    rfl
  · exact horder.nodup_iff.2 (allTimers_nodup.filter _)
  · rw [horder.mem_iff, List.mem_filter]
    exact and_iff_right (mem_allTimers k)
  · have hrow : ∀ {f : Device → Device}, f u = u.fire k → State.onEvent { s with dev := u } d.now f =
        .next { s with dev := u.fireIfDue k } := fun hf => State.onEvent_of_due (s := { s with dev := u }) hphase hnow hdue hf
    cases k with
    | reconstruction c => exact hrow rfl
    | starting | gap | uplink | house | fieldTimeout c | outputFrame c | reference c | priorReference c | acquisition c =>
      exact hrow (Device.expire_of_due hdue)
  · exact ((due_reconstruction_iff d c).1 hdue).1
  · exact (due_reconstruction_iff d c).2 ⟨hjobs, (Nat.add_le_add_left (Nat.min_le_left _ _) _).trans hpast⟩
  · refine ⟨fun hg => ?_, fun src hg => ?_, fun src hg => ?_, fun a hg => ?_⟩
    · exact due_outputFrame_of_some hphase ((Generator.freePeriod_of_settled hg _).1 rfl)
    · exact due_outputFrame_of_some hphase ((Generator.freePeriod_of_settled hg _).2.1 src rfl)
    · exact due_outputFrame_of_none hphase ((Generator.freePeriod_of_settled hg _).2.2 src rfl)
    · obtain ⟨hfree, hholdover, hlocked⟩ := Generator.freePeriod_of_acquire hg (d.chan c).settings.system
      exact ⟨fun hp => due_outputFrame_of_some hphase (hfree hp),
        fun src hp => due_outputFrame_of_some hphase (hholdover src hp),
        fun src hp => due_outputFrame_of_none hphase (hlocked src hp)⟩
  · simp only [due_reference_iff, hsilent]
  · simp only [due_priorReference_iff, hsilent]

end Sys2Proof.Machine
end


section
/-! PROOFS. The signature of a field and the tracker's step on it (R69 to R81). -/

namespace Sys2Proof.Machine

variable {h : List Signature} {t : Tracker} {n : Slot} {sig : Signature}

/-! ## The metrics (R69 to R72) -/

/-- The lines of the grid (R69). -/
def gridRows : System → Nat
  | .s625 => 143
  | .s525 => 119

theorem gridMean_eq (y : System) (f : Nat → Nat → Nat) : gridMean y f =
    ((List.range (gridRows y)).map fun i => ((List.range 180).map fun j => f (2 * i + 2) (4 * j)).sum).sum /
      (gridRows y * 180) := by
  have hrows : y.fieldLines / 2 - 1 = gridRows y := by cases y <;> rfl
  unfold gridMean gridLines gridColumns
  simp only [hrows, List.map_map, List.length_map, List.length_range]
  rfl

/-- A mean over the grid reads the lines of the grid alone. -/
theorem gridMean_congr (y : System) {f g : Nat → Nat → Nat} (h : ∀ i x, f (2 * i + 2) x = g (2 * i + 2) x) :
    gridMean y f = gridMean y g := by
  simp only [gridMean_eq, h]

theorem cleanField_filter_ne (prev : Option Slot) (i : Identity) :
    (cleanField prev).filter (fun p => decide (p.identity ≠ i)) =
      prev.filter fun p => !p.stale && decide (p.identity ≠ i) := by
  cases prev with
  | none => rfl
  | some p => cases hs : p.stale <;> simp [cleanField, Option.filter, hs]

/-- The comb metric of field n against field n−1, on the two lines around each of its own (R71). -/
theorem metricC_eq (y : System) (n : Slot) (prev : Option Slot) : metricC y n prev =
    (prev.filter fun p => !p.stale && decide (p.identity ≠ n.identity)).map fun p =>
      gridMean y fun l x => combValue (n.metricLuma l x) (p.metricLuma (if topField y n.identity then l - 1 else l) x)
        (p.metricLuma (if topField y n.identity then l else l + 1) x) := by
  unfold metricC
  rw [cleanField_filter_ne]
  refine congrArg (fun f => Option.map f _) (funext fun p => ?_)
  refine gridMean_congr y fun i x => ?_
  cases topField y n.identity <;> rfl

theorem signatureOf_repeats (n : Slot) (r c : Option Nat) :
    (signatureOf n r c).repeats = true ↔ ∃ v, r = some v ∧ v < n.context.params.repeatThreshold := by
  simp [signatureOf, Option.any_eq_true]

theorem signatureOf_pairs (n : Slot) (r c : Option Nat) :
    (signatureOf n r c).pairs = true ↔ ∃ v, c = some v ∧ v < n.context.params.combThreshold := by
  simp [signatureOf, Option.any_eq_true]

theorem signatureOf_usable (n : Slot) (r c : Option Nat) :
    (signatureOf n r c).usable = true ↔ c.isSome ∧ r.isSome ∧ n.malformed = false := by
  simp [signatureOf, and_assoc, and_left_comm]

/-! ## The film tests (R77) -/

/-- Ten usable signatures, of which those at the two places of the phase, five apart, repeat (test 1). -/
def IsFilm32 (h : List Signature) (p : Fin 5) : Prop :=
  h.length = 10 ∧ ∀ (i : Nat) (g : Signature), h[i]? = some g →
    g.usable = true ∧ (g.repeats = true ↔ i + p.val = 4 ∨ i + p.val = 9)

/-- The newest eight are usable, none repeats, and their pair flags alternate from the phase (test 2). -/
def IsFilm22 (h : List Signature) (p : Fin 2) : Prop :=
  8 ≤ h.length ∧ ∀ (i : Nat) (g : Signature), i < 8 → h.reverse[i]? = some g →
    g.usable = true ∧ g.repeats = false ∧ (g.pairs = true ↔ (i + p.val) % 2 = 1)

/-- Six usable signatures that do not repeat, of which at least four have the pair flag clear (test 3). -/
def IsVideo (h : List Signature) : Prop :=
  6 ≤ h.length ∧ (∀ g ∈ h.reverse.take 6, g.usable = true ∧ g.repeats = false) ∧
    4 ≤ ((h.reverse.take 6).filter fun g => !g.pairs).length

/-- The repeat flags of ten signatures whose second repeat is at place j. -/
def repeatPattern (j : Nat) : List Bool := (List.range 10).map fun i => decide (i + 5 = j) || decide (i = j)

theorem repeatPattern_inj : ∀ j ∈ [5, 6, 7, 8, 9], ∀ k ∈ [5, 6, 7, 8, 9], repeatPattern j = repeatPattern k → j = k := by
  decide

theorem map_eq_repeatPattern (hl : h.length = 10) (p : Fin 5) : h.map (·.repeats) = repeatPattern (9 - p.val) ↔
    ∀ (i : Nat) (g : Signature), h[i]? = some g → (g.repeats = true ↔ i + p.val = 4 ∨ i + p.val = 9) := by
  have hplace : ∀ i, (decide (i + 5 = 9 - p.val) || decide (i = 9 - p.val)) = true ↔ i + p.val = 4 ∨ i + p.val = 9 := by
    intro i
    have hp := p.isLt
    simp only [Bool.or_eq_true, decide_eq_true_eq]
    omega
  constructor
  · intro hmap i g hg
    have hi : i < 10 := hl ▸ (List.getElem?_eq_some_iff.1 hg).1
    have hat := congrArg (·[i]?) hmap
    simp only [repeatPattern, List.getElem?_map, hg, List.getElem?_range hi, Option.map_some, Option.some.injEq] at hat
    rw [hat, hplace]
  · intro hall
    refine List.ext_getElem (by simp [repeatPattern, hl]) fun i hi _ => ?_
    rw [List.length_map] at hi
    have hat := hall i h[i] (List.getElem?_eq_getElem hi)
    rw [← hplace] at hat
    simpa [repeatPattern] using Bool.eq_iff_iff.2 hat

theorem film32Test_eq (h : List Signature) : film32Test h =
    if h.length = 10 ∧ h.all (·.usable) then
      ([5, 6, 7, 8, 9].find? fun j => decide (h.map (·.repeats) = repeatPattern j)).map fun j => phase5 (9 - j)
    else none := rfl

theorem film32Test_eq_some (p : Fin 5) : film32Test h = some p ↔ IsFilm32 h p := by
  have hp := p.isLt
  have hplace : 9 - p.val ∈ [5, 6, 7, 8, 9] := by
    simp only [List.mem_cons, List.not_mem_nil, or_false]
    omega
  have hphase : phase5 (9 - (9 - p.val)) = p := Fin.ext (by simp only [phase5]; omega)
  have hsplit : IsFilm32 h p ↔ (h.length = 10 ∧ h.all (·.usable) = true) ∧ h.map (·.repeats) = repeatPattern (9 - p.val) := by
    rw [IsFilm32, and_assoc]
    refine and_congr_right fun hl => ?_
    rw [map_eq_repeatPattern hl, List.all_eq_true]
    simp only [List.mem_iff_getElem?]
    exact ⟨fun hall => ⟨fun g ⟨i, hg⟩ => (hall i g hg).1, fun i g hg => (hall i g hg).2⟩,
      fun ⟨husable, hrepeat⟩ i g hg => ⟨husable g ⟨i, hg⟩, hrepeat i g hg⟩⟩
  have hfound : ∀ {j}, [5, 6, 7, 8, 9].find? (fun j => decide (h.map (·.repeats) = repeatPattern j)) = some j →
      h.map (·.repeats) = repeatPattern j := fun hfind =>
    of_decide_eq_true (List.find?_some (p := fun j => decide (h.map (·.repeats) = repeatPattern j)) hfind)
  rw [hsplit, film32Test_eq]
  split
  · rename_i hten
    rw [and_iff_right hten, Option.map_eq_some_iff]
    constructor
    · rintro ⟨j, hfind, hj⟩
      have hmem := List.mem_of_find?_eq_some hfind
      rw [hfound hfind, ← hj]
      congr 1
      simp only [List.mem_cons, List.not_mem_nil, or_false] at hmem
      simp only [phase5]
      omega
    · intro hmap
      have hsome := List.find?_isSome (p := fun j => decide (h.map (·.repeats) = repeatPattern j)).2
        ⟨9 - p.val, hplace, decide_eq_true hmap⟩
      obtain ⟨j, hfind⟩ := Option.isSome_iff_exists.1 hsome
      have hjp := repeatPattern_inj j (List.mem_of_find?_eq_some hfind) _ hplace ((hfound hfind).symm.trans hmap)
      exact ⟨j, hfind, by rw [hjp, hphase]⟩
  · rename_i hnot
    exact iff_of_false (by simp) fun hten => hnot hten.1

theorem newest_reverse (k : Nat) (h : List Signature) : (newest k h).reverse = h.reverse.take k := by
  rw [newest, List.reverse_drop]
  by_cases hk : k ≤ h.length
  · rw [Nat.sub_sub_self hk]
  · rw [List.take_of_length_le (by simp only [List.length_reverse]; omega),
      List.take_of_length_le (by simp only [List.length_reverse]; omega)]

theorem alternating_iff_isChain (l : List Bool) : alternating l = true ↔ l.IsChain (· ≠ ·) := by
  induction l with
  | nil => simp [alternating]
  | cons a l ih =>
    cases l with
    | nil => simp [alternating]
    | cons b l => simp [alternating, ih]

/-- Flags that alternate are told by the first of them. -/
theorem isChain_ne_iff (a : Bool) (l : List Bool) : (a :: l).IsChain (· ≠ ·) ↔
    ∀ (i : Nat) (b : Bool), (a :: l)[i]? = some b → (b = true ↔ (i % 2 = 0 ↔ a = true)) := by
  induction l generalizing a with
  | nil =>
    refine iff_of_true (by simp) fun i b hb => ?_
    obtain ⟨rfl, rfl⟩ : i = 0 ∧ a = b := by simpa [List.getElem?_singleton] using hb
    simp
  | cons b l ih =>
    have hflip : ∀ (i : Nat), a ≠ b → ((i % 2 = 0 ↔ b = true) ↔ ((i + 1) % 2 = 0 ↔ a = true)) := by
      intro i hab
      have hodd : (i + 1) % 2 = 0 ↔ ¬ i % 2 = 0 := by omega
      rw [hodd, Bool.eq_not.2 hab.symm]
      cases a <;> simp
    rw [List.isChain_cons_cons, ih]
    constructor
    · rintro ⟨hab, hall⟩ i x hx
      cases i with
      | zero =>
        obtain rfl : a = x := by simpa using hx
        simp
      | succ i => rw [← hflip i hab, hall i x hx]
    · intro hall
      have hb := hall 1 b rfl
      have hab : a ≠ b := by
        rintro rfl
        simp at hb
      exact ⟨hab, fun i x hx => by rw [hflip i hab, hall (i + 1) x hx]⟩

theorem film22Test_eq_some (p : Fin 2) : film22Test h = some p ↔ IsFilm22 h p := by
  have hp := p.isLt
  have hshort : ∀ i, i < 8 → h.reverse[i]? = (h.reverse.take 8)[i]? := fun i hi => (List.getElem?_take_of_lt hi).symm
  unfold film22Test IsFilm22
  have hw : newest 8 h = (h.reverse.take 8).reverse := by rw [← newest_reverse, List.reverse_reverse]
  rw [hw]
  by_cases hl : 8 ≤ h.length
  · have hlen : (h.reverse.take 8).length = 8 := by simp [hl]
    generalize h.reverse.take 8 = r at hshort hlen
    cases r with
    | nil => simp at hlen
    | cons a r =>
      have hchain : alternating ((a :: r).reverse.map (·.pairs)) = true ↔
          ∀ (i : Nat) (b : Bool), (a.pairs :: r.map (·.pairs))[i]? = some b → (b = true ↔ (i % 2 = 0 ↔ a.pairs = true)) := by
        rw [alternating_iff_isChain, List.map_reverse, List.isChain_reverse, ← isChain_ne_iff]
        simp only [ne_comm, List.map_cons]
      have hclean : (a :: r).reverse.all (fun s => s.usable && !s.repeats) = true ↔
          ∀ (i : Nat) (g : Signature), (a :: r)[i]? = some g → g.usable = true ∧ g.repeats = false := by
        simp only [List.all_reverse, List.all_eq_true, Bool.and_eq_true, Bool.not_eq_true', List.mem_iff_getElem?,
          forall_exists_index]
        exact forall_comm
      have hphase : (if a.pairs then (1 : Fin 2) else 0) = p ↔ (a.pairs = true ↔ p.val = 1) := by
        cases a.pairs <;> simp [Fin.ext_iff] <;> omega
      have hlast : ((a :: r).reverse.getLast?.map fun s => if s.pairs then (1 : Fin 2) else 0) = some p ↔
          (a.pairs = true ↔ p.val = 1) := by
        rw [List.getLast?_reverse, ← hphase]
        simp
      have hparity : ∀ i, (i % 2 = 0 ↔ p.val = 1) ↔ (i + p.val) % 2 = 1 := by omega
      dsimp only
      rw [Option.ite_none_right_eq_some, hlast, hclean, hchain]
      constructor
      · rintro ⟨⟨-, hall, halternate⟩, hfirst⟩
        refine ⟨hl, fun i g hi hg => ?_⟩
        rw [hshort i hi] at hg
        obtain ⟨husable, hrepeat⟩ := hall i g hg
        have hpair := halternate i g.pairs (by rw [← List.map_cons, List.getElem?_map, hg]; rfl)
        rw [hfirst, hparity] at hpair
        exact ⟨husable, hrepeat, hpair⟩
      · rintro ⟨-, hall⟩
        have hall' : ∀ (i : Nat) (g : Signature), (a :: r)[i]? = some g →
            g.usable = true ∧ g.repeats = false ∧ (g.pairs = true ↔ (i + p.val) % 2 = 1) := by
          intro i g hg
          have hi : i < 8 := hlen ▸ (List.getElem?_eq_some_iff.1 hg).1
          exact hall i g hi ((hshort i hi).trans hg)
        have hfirst : a.pairs = true ↔ p.val = 1 := (hall' 0 a rfl).2.2.trans (by omega)
        refine ⟨⟨hl, fun i g hg => ⟨(hall' i g hg).1, (hall' i g hg).2.1⟩, fun i b hb => ?_⟩, hfirst⟩
        rw [← List.map_cons, List.getElem?_map, Option.map_eq_some_iff] at hb
        obtain ⟨g, hg, rfl⟩ := hb
        rw [hfirst, hparity]
        exact (hall' i g hg).2.2
  · exact iff_of_false (by simp [hl]) fun h => hl h.1

theorem videoTest_iff : videoTest h = true ↔ IsVideo h := by
  have hlength : ((newest 6 h).filter fun s => !s.pairs).length = ((h.reverse.take 6).filter fun g => !g.pairs).length := by
    rw [← newest_reverse, List.filter_reverse, List.length_reverse]
  have hclean : (newest 6 h).all (fun s => s.usable && !s.repeats) = true ↔
      ∀ g ∈ h.reverse.take 6, g.usable = true ∧ g.repeats = false := by
    rw [← newest_reverse]
    simp
  unfold videoTest IsVideo
  dsimp only
  rw [Bool.and_eq_true, Bool.and_eq_true, decide_eq_true_eq, decide_eq_true_eq, hlength, hclean, and_assoc]

theorem film32Test_eq_none (hnot : ∀ p, ¬ IsFilm32 h p) : film32Test h = none :=
  Option.eq_none_iff_forall_ne_some.2 fun p hp => hnot p ((film32Test_eq_some p).1 hp)

theorem film22Test_eq_none (hnot : ∀ p, ¬ IsFilm22 h p) : film22Test h = none :=
  Option.eq_none_iff_forall_ne_some.2 fun p hp => hnot p ((film22Test_eq_some p).1 hp)

/-! ## The step of an AUTO tracker (R74 to R80) -/

/-- The film tests lock a tracker that looks for film (R77, R78). -/
def LocksFilm (t : Tracker) (result : Tracker × CadenceReason) : Prop :=
  (∀ p, IsFilm32 t.history p → result = ({ t with cadence := .film32 p }, .lock)) ∧
  ((∀ p, ¬ IsFilm32 t.history p) → ∀ q, IsFilm22 t.history q → result = ({ t with cadence := .film22 q }, .lock))

theorem Tracker.autoStep_seek (hc : t.cadence = .seek) (third : Bool) :
    LocksFilm t (t.autoStep sig third) ∧
    ((∀ p, ¬ IsFilm32 t.history p) → (∀ q, ¬ IsFilm22 t.history q) →
      (IsVideo t.history → t.autoStep sig third = ({ t with cadence := .video }, .lock)) ∧
      (¬ IsVideo t.history → t.autoStep sig third = (t, .lock))) := by
  unfold Tracker.autoStep
  rw [hc]
  refine ⟨⟨fun p hp => ?_, fun hno q hq => ?_⟩, fun hno32 hno22 => ⟨fun hv => ?_, fun hv => ?_⟩⟩
  · simp only [(film32Test_eq_some p).2 hp]
  · simp only [film32Test_eq_none hno, (film22Test_eq_some q).2 hq]
  · simp only [film32Test_eq_none hno32, film22Test_eq_none hno22, videoTest_iff.2 hv]
  · simp only [film32Test_eq_none hno32, film22Test_eq_none hno22, Bool.eq_false_iff.2 fun h => hv (videoTest_iff.1 h)]

theorem Tracker.autoStep_video (hc : t.cadence = .video) :
    t.autoStep sig true = (.broken, .unusable) ∧ LocksFilm t (t.autoStep sig false) ∧
    ((∀ p, ¬ IsFilm32 t.history p) → (∀ q, ¬ IsFilm22 t.history q) → t.autoStep sig false = (t, .lock)) := by
  unfold Tracker.autoStep
  rw [hc]
  refine ⟨rfl, ⟨fun p hp => ?_, fun hno q hq => ?_⟩, fun hno32 hno22 => ?_⟩
  · simp only [(film32Test_eq_some p).2 hp, Bool.false_eq_true, if_false]
  · simp only [film32Test_eq_none hno, (film22Test_eq_some q).2 hq, Bool.false_eq_true, if_false]
  · simp only [film32Test_eq_none hno32, film22Test_eq_none hno22, Bool.false_eq_true, if_false]

theorem phase5_succ (p : Fin 5) : phase5 (p.val + 1) = p + 1 := Fin.ext (by simp [phase5, Fin.val_add])

theorem phase2_succ (p : Fin 2) : phase2 (p.val + 1) = p + 1 := Fin.ext (by simp [phase2, Fin.val_add])

theorem Tracker.autoStep_film32 {p : Fin 5} (hc : t.cadence = .film32 p) :
    t.autoStep sig true = (.broken, .unusable) ∧ t.autoStep sig false =
      if p + 1 = 0 ∧ sig.usable = true ∧ sig.repeats = false then (.broken, .break_)
      else ({ t with cadence := .film32 (p + 1) }, .lock) := by
  unfold Tracker.autoStep
  rw [hc, ← phase5_succ]
  refine ⟨rfl, (if_neg Bool.false_ne_true).trans (if_congr ?_ rfl rfl)⟩
  simp only [Bool.not_eq_true]

theorem Tracker.autoStep_film22 {p : Fin 2} (hc : t.cadence = .film22 p) :
    t.autoStep sig true = (.broken, .unusable) ∧ t.autoStep sig false =
      if p + 1 = 1 ∧ sig.usable = true ∧ sig.pairs = false then (.broken, .break_)
      else ({ t with cadence := .film22 (p + 1) }, .lock) := by
  unfold Tracker.autoStep
  rw [hc, ← phase2_succ]
  refine ⟨rfl, (if_neg Bool.false_ne_true).trans (if_congr ?_ rfl rfl)⟩
  simp only [Bool.not_eq_true]

/-! ## The step (R73, R74, R81) -/

/-- A tracker whose history and counter hold a signature more (R73). -/
def Tracker.withSignature (t : Tracker) (sig : Signature) : Tracker :=
  { t with history := appendSignature t.history sig, unusable := countUnusable t.unusable sig }

theorem Tracker.step_auto (h : n.context.params.mode = .auto) (t : Tracker) (sig : Signature) :
    t.step n sig = (t.withSignature sig).autoStep sig (decide (t.unusable = 2) && !sig.usable) := by
  unfold Tracker.step
  rw [h]
  rfl

theorem Tracker.step_forced (h : n.context.params.mode ≠ .auto) (t : Tracker) (sig : Signature) :
    t.step n sig = ({ t.withSignature sig with cadence := forcedState n.context.params.mode n.forcedPhase }, .forced) := by
  unfold Tracker.step
  cases hm : n.context.params.mode with
  | auto => exact absurd hm h
  | forceVideo | force22 | force32 => rfl

/-- Settles O59: the metrics, the tests, and the step by the tracker's state. -/
theorem signatureStepsTheTracker : Obligations.SignatureStepsTheTracker := by
  refine ⟨fun y ring n => ?_, fun t n sig => ?_⟩
  · intro sig code rows mean prev1 prev2 top comb
    have hrows : gridRows y = rows := by cases y <;> rfl
    have hmean : ∀ f, gridMean y f = mean f := fun f => by
      rw [gridMean_eq, hrows]
    have htop : topField y n.identity = top := by
      simp only [top]
      generalize n.identity = i
      cases y <;> cases i <;> rfl
    have hr : metricR y n (secondPreviousField ring) = prev2.map fun p => mean fun l x => absDiff (code n l x) (code p l x) :=
      congrArg (fun f => Option.map f prev2) (funext fun p => hmean _)
    have hc : metricC y n (previousField ring) = prev1.map fun p => mean (comb p) := by
      rw [metricC_eq, htop]
      exact congrArg (fun f => Option.map f prev1) (funext fun p => hmean _)
    have hsig : sig = signatureOf n (prev2.map fun p => mean fun l x => absDiff (code n l x) (code p l x))
        (prev1.map fun p => mean (comb p)) := by
      rw [← hr, ← hc]
      rfl
    rw [hsig, signatureOf_repeats, signatureOf_pairs, signatureOf_usable]
    simp only [Option.map_eq_some_iff, Option.isSome_map, exists_exists_and_eq_and, and_true]
    rfl
  · intro third h kept counter broken film32 film22 video filmLocks
    have hthird : (decide (t.unusable = 2) && !sig.usable) = true ↔ third := by
      simp only [third, Bool.and_eq_true, decide_eq_true_eq, Bool.not_eq_true']
    refine ⟨fun hauto => ?_, fun hmode => ?_, fun p hmode hphase => ?_, fun p hmode hphase => ?_⟩
    · have hstep := Tracker.step_auto hauto t sig
      have hlast : third → t.step n sig = (t.withSignature sig).autoStep sig true := fun h => by
        rw [hstep, hthird.2 h]
      have hnot : ¬ third → t.step n sig = (t.withSignature sig).autoStep sig false := fun h => by
        rw [hstep, Bool.eq_false_iff.2 fun h' => h (hthird.1 h')]
      have hsame : ∀ {x : Cadence}, t.cadence = x → t.withSignature sig = ⟨x, kept, counter⟩ := fun h => by
        rw [← h]
        rfl
      refine ⟨fun hc => ?_, fun hc => ?_, fun p hc => ?_, fun p hc => ?_⟩
      · obtain ⟨hlocks, hrest⟩ := Tracker.autoStep_seek (t := t.withSignature sig) (sig := sig) hc
          (decide (t.unusable = 2) && !sig.usable)
        rw [← hstep] at hlocks hrest
        refine ⟨hlocks, fun hno32 hno22 => ⟨(hrest hno32 hno22).1, fun hv => ?_⟩⟩
        exact (congrArg Prod.fst ((hrest hno32 hno22).2 hv)).trans (hsame hc)
      · obtain ⟨hlost, hlocks, hrest⟩ := Tracker.autoStep_video (t := t.withSignature sig) (sig := sig) hc
        refine ⟨fun h3 => (hlast h3).trans hlost, fun h3 => ?_⟩
        rw [← hnot h3] at hlocks hrest
        exact ⟨hlocks, fun hno32 hno22 => (congrArg Prod.fst (hrest hno32 hno22)).trans (hsame hc)⟩
      · obtain ⟨hlost, hgoes⟩ := Tracker.autoStep_film32 (t := t.withSignature sig) (sig := sig) hc
        refine ⟨fun h3 => (hlast h3).trans hlost, fun h3 hb => ?_, fun h3 hb => ?_⟩
        · exact (hnot h3).trans (hgoes.trans (if_pos hb))
        · exact congrArg Prod.fst ((hnot h3).trans (hgoes.trans (if_neg hb)))
      · obtain ⟨hlost, hgoes⟩ := Tracker.autoStep_film22 (t := t.withSignature sig) (sig := sig) hc
        refine ⟨fun h3 => (hlast h3).trans hlost, fun h3 hb => ?_, fun h3 hb => ?_⟩
        · exact (hnot h3).trans (hgoes.trans (if_pos hb))
        · exact congrArg Prod.fst ((hnot h3).trans (hgoes.trans (if_neg hb)))
    · rw [Tracker.step_forced (by rw [hmode]; decide), hmode]
      rfl
    · rw [Tracker.step_forced (by rw [hmode]; decide), hmode, hphase]
      rfl
    · rw [Tracker.step_forced (by rw [hmode]; decide), hmode, hphase]
      rfl

end Sys2Proof.Machine
end


section
/-! PROOFS. The frame built from a view: woven or interpolated, sample by sample (R92 to R100). -/

namespace Sys2Proof.Machine

variable {y : System} {v : View} {k : ForcedPhase} {line x j : Nat}

/-! ## The lines around a missing one, the rectangles and the phases -/

theorem carries_iff (y : System) (i : Identity) (line : Nat) :
    carries y i line = true ↔ (line % 2 = 0 ↔ topField y i = true) := by
  rw [carries, beq_iff_eq, Bool.eq_iff_iff, decide_eq_true_eq]

theorem lineAbove_half (line : Nat) : lineAbove line / 2 = (if line = 0 then 1 else line - 1) / 2 := by
  unfold lineAbove
  split
  · rename_i h
    rw [h]
  · rfl

theorem Rect.has_iff (r : Rect) (x line : Nat) :
    r.has x line = true ↔ r.x0 ≤ x ∧ x < r.x0 + r.w ∧ r.y0 ≤ line ∧ line < r.y0 + r.h := by
  simp only [Rect.has, Bool.and_eq_true, decide_eq_true_eq, and_assoc]

theorem View.inWindow_iff (v : View) (x line : Nat) : v.inWindow x line = true ↔
    (∃ w, v.field.window = some w ∧ w.rect.has x line = true) ∨
      ∃ f w, v.next = some f ∧ f.window = some w ∧ w.remaining = 2 ∧ w.rect.has x line = true := by
  simp only [View.inWindow, Bool.or_eq_true, Option.any_eq_true, Option.bind_eq_some_iff, Bool.and_eq_true,
    decide_eq_true_eq]
  exact or_congr_right ⟨fun ⟨w, ⟨f, hf, hw⟩, h⟩ => ⟨f, w, hf, hw, h⟩, fun ⟨f, w, hf, hw, h⟩ => ⟨w, ⟨f, hf, hw⟩, h⟩⟩

theorem cleanField_eq_some {o : Option Slot} {f : Slot} : cleanField o = some f ↔ o = some f ∧ f.stale = false := by
  simp [cleanField, Option.filter_eq_some_iff]

theorem partnerIsNext_iff (k : ForcedPhase) : partnerIsNext k = true ↔ k = .of32 1 ∨ k = .of32 3 ∨ k = .of22 0 := by
  cases k <;> simp [partnerIsNext]

/-! ## The partner and the neighbours -/

/-- The cadence weaves, and gives field n the phase k (R92). -/
def View.Weaves (v : View) (k : ForcedPhase) : Prop :=
  (∃ q : Fin 5, v.cadence = some (.film32 q) ∧ k = .of32 (q - 1)) ∨
  (∃ q : Fin 2, v.cadence = some (.film22 q) ∧ k = .of22 (q - 1)) ∨
  (∃ q r : Fin 5, v.cadence = some (.forced32 q) ∧ v.field.context.params.mode = .force32 ∧ v.field.forcedPhase = some k ∧
    k = .of32 r) ∨
  (∃ q r : Fin 2, v.cadence = some (.forced22 q) ∧ v.field.context.params.mode = .force22 ∧ v.field.forcedPhase = some k ∧
    k = .of22 r)

/-- The cadence does not weave (R92). -/
def View.Plain (v : View) : Prop :=
  v.cadence = none ∨ v.cadence = some .seek ∨ v.cadence = some .video ∨ v.cadence = some .forcedVideo ∨
    (∃ q, v.cadence = some (.forced32 q) ∧ v.field.context.params.mode ≠ .force32) ∨
    (∃ q, v.cadence = some (.forced22 q) ∧ v.field.context.params.mode ≠ .force22)

/-- A neighbour that carries the other lines and is not stale. -/
def View.Usable (v : View) (f : Slot) : Prop := f.stale = false ∧ f.identity ≠ v.field.identity

/-- The field that the phase names as the partner, where it can be used (R93). -/
def View.IsPartner (v : View) (k : ForcedPhase) (f : Slot) : Prop :=
  if k = .of32 1 ∨ k = .of32 3 ∨ k = .of22 0 then v.next = some f ∧ v.Usable f ∧ v.field.stale = false
  else v.prev1 = some f ∧ v.Usable f

/-- The three neighbours of a temporal estimate (R98). -/
def View.Around (v : View) (p1 p2 n1 : Slot) : Prop :=
  v.prev1 = some p1 ∧ v.Usable p1 ∧ v.prev2 = some p2 ∧ p2.stale = false ∧ v.next = some n1

theorem phase5_pred : ∀ q : Fin 5, phase5 (q.val + 4) = q - 1 := by decide

theorem phase2_pred : ∀ q : Fin 2, phase2 (q.val + 1) = q - 1 := by decide

theorem View.weavePhase_of_weaves (h : v.Weaves k) : v.weavePhase = some k := by
  unfold View.weavePhase
  obtain ⟨q, hc, rfl⟩ | ⟨q, hc, rfl⟩ | ⟨q, r, hc, hm, hk, rfl⟩ | ⟨q, r, hc, hm, hk, rfl⟩ := h
  · rw [hc, ← phase5_pred]
  · rw [hc, ← phase2_pred]
  · rw [hc]
    exact (if_pos hm).trans hk
  · rw [hc]
    exact (if_pos hm).trans hk

theorem View.weavePhase_of_plain (h : v.Plain) : v.weavePhase = none := by
  unfold View.weavePhase
  obtain hc | hc | hc | hc | ⟨q, hc, hm⟩ | ⟨q, hc, hm⟩ := h <;> rw [hc]
  · exact if_neg hm
  · exact if_neg hm

theorem View.partner_eq_some (h : v.Weaves k) {f : Slot} : v.partner = some f ↔ v.IsPartner k f := by
  unfold View.partner View.IsPartner View.Usable
  rw [View.weavePhase_of_weaves h]
  dsimp only
  by_cases hk : k = .of32 1 ∨ k = .of32 3 ∨ k = .of22 0
  · rw [if_pos hk, if_pos ((partnerIsNext_iff k).2 hk)]
    simp [Option.filter_eq_some_iff, cleanField_eq_some, and_assoc]
  · rw [if_neg hk, if_neg fun hn => hk ((partnerIsNext_iff k).1 hn)]
    simp [Option.filter_eq_some_iff, cleanField_eq_some, and_assoc]

/-- Without a partner that can be used a frame is interpolated (R92). -/
theorem View.partner_eq_none (h : v.Plain ∨ ∃ k, v.Weaves k ∧ ∀ f, ¬ v.IsPartner k f) : v.partner = none := by
  obtain hplain | ⟨k, hweaves, hno⟩ := h
  · unfold View.partner
    rw [View.weavePhase_of_plain hplain]
  · exact Option.eq_none_iff_forall_ne_some.2 fun f hf => hno f ((View.partner_eq_some hweaves).1 hf)

theorem View.neighbours_eq_some {p1 p2 n1 : Slot} : v.neighbours = some (p1, p2, n1) ↔ v.Around p1 p2 n1 := by
  have hfound : v.neighbours = some (p1, p2, n1) ↔ cleanField v.prev1 = some p1 ∧ cleanField v.prev2 = some p2 ∧
      v.next = some n1 ∧ p1.identity ≠ v.field.identity := by
    unfold View.neighbours
    cases cleanField v.prev1 with
    | none => simp
    | some q1 =>
      cases cleanField v.prev2 with
      | none => simp
      | some q2 =>
        cases v.next with
        | none => simp
        | some m1 =>
          dsimp only
          by_cases hi : q1.identity = v.field.identity
          · rw [if_pos hi]
            refine iff_of_false (by simp) fun ⟨h1, _, _, hne⟩ => hne ?_
            rw [← Option.some.inj h1, hi]
          · rw [if_neg hi]
            simp only [Option.some.injEq, Prod.mk.injEq]
            exact ⟨fun ⟨h1, h2, h3⟩ => ⟨h1, h2, h3, h1 ▸ hi⟩, fun ⟨h1, h2, h3, _⟩ => ⟨h1, h2, h3⟩⟩
  rw [hfound, cleanField_eq_some, cleanField_eq_some]
  unfold View.Around View.Usable
  tauto

theorem View.neighbours_eq_none (h : ∀ p1 p2 n1, ¬ v.Around p1 p2 n1) : v.neighbours = none :=
  Option.eq_none_iff_forall_ne_some.2 fun ⟨p1, p2, n1⟩ hn => h p1 p2 n1 (View.neighbours_eq_some.1 hn)

/-! ## The estimates (R96 to R99) -/

theorem blend_zero (t s : Nat) : blend t s 0 = t := by
  unfold blend
  omega

theorem blend_full (t s : Nat) : blend t s 16 = s := by
  unfold blend
  omega

theorem blend_between (t s : Nat) {k : Nat} (hk : k ≤ 16) : min t s ≤ blend t s k ∧ blend t s k ≤ max t s := by
  have hlow : min t s * 16 ≤ t * (16 - k) + s * k := by
    calc min t s * 16
      _ = min t s * (16 - k) + min t s * k := by rw [← Nat.mul_add, Nat.sub_add_cancel hk]
      _ ≤ t * (16 - k) + s * k := Nat.add_le_add (Nat.mul_le_mul_right _ (Nat.min_le_left ..))
        (Nat.mul_le_mul_right _ (Nat.min_le_right ..))
  have hhigh : t * (16 - k) + s * k ≤ max t s * 16 := by
    calc t * (16 - k) + s * k
      _ ≤ max t s * (16 - k) + max t s * k := Nat.add_le_add (Nat.mul_le_mul_right _ (Nat.le_max_left ..))
        (Nat.mul_le_mul_right _ (Nat.le_max_right ..))
      _ = max t s * 16 := by rw [← Nat.mul_add, Nat.sub_add_cancel hk]
  unfold blend
  omega

/-- A sample of a column that a direction names lies in the line. -/
theorem spatialLuma_eq (a b : Nat → Nat) {x : Nat} (hx : x < 720) :
    spatialLuma a b x =
      if absDiff (a x) (b x) ≤ absDiff (a (x - 1)) (b (min 719 (x + 1))) ∧
          absDiff (a x) (b x) ≤ absDiff (a (min 719 (x + 1))) (b (x - 1)) then mean2 (a x) (b x)
      else if absDiff (a (x - 1)) (b (min 719 (x + 1))) ≤ absDiff (a (min 719 (x + 1))) (b (x - 1)) then
        mean2 (a (x - 1)) (b (min 719 (x + 1)))
      else mean2 (a (min 719 (x + 1))) (b (x - 1)) := by
  have hleft : column x (-1) = x - 1 := by
    unfold column
    omega
  have hhere : column x 0 = x := by
    unfold column
    omega
  have hright : column x 1 = min 719 (x + 1) := by
    unfold column
    omega
  have hneg : (- -1 : Int) = 1 ∧ (-0 : Int) = 0 := by decide
  unfold spatialLuma edgeDirection
  dsimp only
  simp only [hneg.1, hneg.2, hleft, hhere, hright]
  split
  · rw [hhere, hneg.2, hhere]
  · split
    · rw [hneg.1, hleft, hright]
    · rw [hleft, hright]

theorem mean2_between {a b low high : Nat} (ha : low ≤ a ∧ a ≤ high) (hb : low ≤ b ∧ b ≤ high) :
    low ≤ mean2 a b ∧ mean2 a b ≤ high := by
  unfold mean2
  omega

theorem spatialLuma_between (a b : Nat → Nat) {x low high : Nat} (hx : x < 720)
    (h : ∀ i, i < 720 → low ≤ a i ∧ a i ≤ high ∧ low ≤ b i ∧ b i ≤ high) :
    low ≤ spatialLuma a b x ∧ spatialLuma a b x ≤ high := by
  have hmean : ∀ i j, i < 720 → j < 720 → low ≤ mean2 (a i) (b j) ∧ mean2 (a i) (b j) ≤ high := fun i j hi hj => by
    obtain ⟨ha1, ha2, -, -⟩ := h i hi
    obtain ⟨-, -, hb1, hb2⟩ := h j hj
    exact mean2_between ⟨ha1, ha2⟩ ⟨hb1, hb2⟩
  rw [spatialLuma_eq a b hx]
  split
  · exact hmean x x hx hx
  · split <;> exact hmean _ _ (by omega) (by omega)

theorem weightOf_cases (p : Profile) (m : Nat) (h : p.motionLow < p.motionHigh) : weightOf p m ≤ 16 ∧
    (m ≤ p.motionLow → weightOf p m = 0) ∧ (p.motionHigh ≤ m → weightOf p m = 16) ∧
    (p.motionLow < m → m < p.motionHigh →
      weightOf p m = (m - p.motionLow) * 16 / (p.motionHigh - p.motionLow) ∧ weightOf p m < 16) := by
  unfold weightOf
  by_cases hlow : m ≤ p.motionLow
  · rw [if_pos hlow]
    omega
  · by_cases hhigh : p.motionHigh ≤ m
    · rw [if_neg hlow, if_pos hhigh]
      omega
    · rw [if_neg hlow, if_neg hhigh]
      have hlt : (m - p.motionLow) * 16 / (p.motionHigh - p.motionLow) < 16 := by
        rw [Nat.div_lt_iff_lt_mul (by omega)]
        omega
      exact ⟨hlt.le, fun h => absurd h hlow, fun h => absurd h hhigh, fun _ _ => ⟨rfl, hlt⟩⟩

/-! ## A sample of the frame (R94, R95, R98 to R100) -/

section Sample

variable (code : Slot → Nat → Nat → Nat)

theorem View.frame_own (h : carries y v.field.identity line = true) :
    v.frameLuma y x line = v.field.luma (line / 2) x ∧ v.frameChroma y code j line = code v.field (line / 2) j :=
  ⟨if_pos h, if_pos h⟩

/-- A missing sample of a frame that is woven. -/
theorem View.frame_woven (h : ¬ carries y v.field.identity line = true) {f : Slot} (hp : v.partner = some f) :
    v.frameLuma y x line = (if v.inWindow x line then v.spatial y x line else f.luma (line / 2) x) ∧
    v.frameChroma y code j line =
      if v.inWindow (2 * j) line then v.spatialChroma y code j line else code f (line / 2) j := by
  unfold View.frameLuma View.frameChroma
  rw [if_neg h, if_neg h, hp]
  exact ⟨rfl, rfl⟩

/-- A missing sample of a frame that is interpolated. -/
theorem View.frame_video (h : ¬ carries y v.field.identity line = true) (hp : v.partner = none) :
    v.frameLuma y x line = v.videoLuma y x line ∧ v.frameChroma y code j line = v.videoChroma y code j line := by
  unfold View.frameLuma View.frameChroma
  rw [if_neg h, if_neg h, hp]
  exact ⟨rfl, rfl⟩

theorem View.video_alone (h : v.neighbours = none) :
    v.videoLuma y x line = v.spatial y x line ∧ v.videoChroma y code j line = v.spatialChroma y code j line := by
  unfold View.videoLuma View.videoChroma
  rw [h]
  exact ⟨rfl, rfl⟩

/-- A blend that is left out at weight 16 gives what the blend would give. -/
theorem blend_unless_full (t s k : Nat) : (if k = 16 then s else blend t s k) = blend t s k := by
  split
  · rename_i hk
    rw [hk, blend_full]
  · rfl

theorem View.video_blended {p1 p2 n1 : Slot} (h : v.neighbours = some (p1, p2, n1)) :
    v.videoLuma y x line = blend (mean2 (p1.luma (line / 2) x) (n1.luma (line / 2) x)) (v.spatial y x line)
      (v.weight y x line) ∧
    v.videoChroma y code j line = blend (mean2 (code p1 (line / 2) j) (code n1 (line / 2) j))
      (v.spatialChroma y code j line) (v.weight y (2 * j) line) := by
  unfold View.videoLuma View.videoChroma
  rw [h]
  exact ⟨blend_unless_full .., blend_unless_full ..⟩

theorem View.weight_eq {p1 p2 n1 : Slot} (h : v.neighbours = some (p1, p2, n1)) : v.weight y x line =
    if v.inWindow x line then 16 else weightOf v.field.context.params (motionValue y v.field p1 p2 n1 x line) := by
  unfold View.weight
  rw [h]

end Sample

end Sys2Proof.Machine
end


section
/-! PROOFS. Scaling and composition: every sample of the raster (R109 to R118). -/

namespace Sys2Proof.Machine

variable {y : System} {v : View} {p : Profile}

/-! ## A pass over the crop window (R111 to R114) -/

theorem filterValue_flat (f : Filter) {phase : Nat} (h : phase < 8) (x : Nat) :
    filterValue (coefficients f phase) x x x x = x := by
  unfold filterValue
  cases f with
  | linear =>
    unfold coefficients
    dsimp only
    have hsum : (0 * (x : Int) + (64 - 8 * (phase : Int)) * x + 8 * (phase : Int) * x + 0 * x) = 64 * x := by ring
    rw [hsum]
    omega
  | cubic =>
    interval_cases phase <;> simp only [coefficients] <;> omega

theorem scalePhase_lt (inSize outSize i : Nat) : scalePhase inSize outSize i < 8 := by
  unfold scalePhase
  omega

theorem tapIndex_lt {inSize : Nat} (h : 0 < inSize) (i : Int) : tapIndex inSize i < inSize := by
  unfold tapIndex
  omega

/-- A pass over samples that are all the same gives their value. -/
theorem scaled_flat (f : Filter) {inSize : Nat} (h : 0 < inSize) (outSize : Nat) {sample : Nat → Nat} {x : Nat}
    (hflat : ∀ i, i < inSize → sample i = x) (i : Nat) : scaled f inSize outSize sample i = x := by
  unfold scaled
  dsimp only
  rw [hflat _ (tapIndex_lt h _), hflat _ (tapIndex_lt h _), hflat _ (tapIndex_lt h _), hflat _ (tapIndex_lt h _)]
  exact filterValue_flat f (scalePhase_lt ..) x

theorem clampInt_natCast (low high x : Nat) : clampInt low high (x : Int) = max low (min high x) := by
  unfold clampInt
  omega

/-! ## The rows of the raster (R118) -/

theorem outRow_y (y : System) (v : View) (row : Nat) (col : Fin 1920) : (outRow y v row).y[col] =
    if 240 ≤ col.val ∧ col.val < 1680 then BitVec.ofNat 10 (activeLuma y v (col.val - 240) row)
    else v.field.context.params.border.y := getElem_tabulate ..

theorem outRow_chroma (y : System) (v : View) (row : Nat) (pair : Fin 960) :
    ((outRow y v row).cb[pair] =
      if 120 ≤ pair.val ∧ pair.val < 840 then BitVec.ofNat 10 (activeChroma y v Slot.cb (pair.val - 120) row)
      else v.field.context.params.border.cb) ∧
    (outRow y v row).cr[pair] =
      if 120 ≤ pair.val ∧ pair.val < 840 then BitVec.ofNat 10 (activeChroma y v Slot.cr (pair.val - 120) row)
      else v.field.context.params.border.cr := ⟨getElem_tabulate .., getElem_tabulate ..⟩

theorem compose_row (y : System) (v : View) (row : Fin 1080) : (compose y v).raster[row] = outRow y v row.val :=
  getElem_tabulate ..

/-- A flat crop window gives its own value (R110 to R116). -/
theorem activeLuma_flat {code : Nat} (hw : 0 < v.field.context.params.cropWidth) (hh : 0 < v.field.context.params.cropHeight)
    (hflat : ∀ x line, v.field.context.params.cropX0 ≤ x →
      x < v.field.context.params.cropX0 + v.field.context.params.cropWidth → v.field.context.params.cropY0 ≤ line →
      line < v.field.context.params.cropY0 + v.field.context.params.cropHeight → v.frameLuma y x line = code)
    (col row : Nat) : activeLuma y v col row = max 4 (min 1019 code) := by
  have hvertical : ∀ t, t < v.field.context.params.cropWidth → vertical v.field.context.params
      (fun line => v.frameLuma y (v.field.context.params.cropX0 + t) line) row = min 1023 code := by
    intro t ht
    unfold vertical
    rw [scaled_flat _ hh 1080 (x := code) fun i hi => hflat _ _ (by omega) (by omega) (by omega) (by omega),
      clampInt_natCast]
    omega
  unfold activeLuma
  dsimp only
  rw [scaled_flat _ hw 1440 hvertical, clampInt_natCast]
  omega

/-! ## The coefficients as a table (R113) -/

theorem coefficients_cubic : ∀ phase : Fin 8, coefficients .cubic phase.val =
    [(0, 64, 0, 0), (-3, 61, 6, 0), (-4, 55, 15, -2), (-5, 47, 25, -3), (-4, 36, 36, -4), (-3, 25, 47, -5),
      (-2, 15, 55, -4), (0, 6, 61, -3)].getD phase.val (0, 0, 0, 0) := by
  decide

/-- The four coefficients of a source position in eighths (R113). -/
def coefficientsAt (f : Filter) (position : Int) : Int × Int × Int × Int :=
  match f with
  | .cubic => ([(0, 64, 0, 0), (-3, 61, 6, 0), (-4, 55, 15, -2), (-5, 47, 25, -3), (-4, 36, 36, -4), (-3, 25, 47, -5),
      (-2, 15, 55, -4), (0, 6, 61, -3)] : List (Int × Int × Int × Int)).getD (position % 8).toNat (0, 0, 0, 0)
  | .linear => (0, 64 - 8 * (position % 8), 8 * (position % 8), 0)

theorem coefficients_eq (f : Filter) (position : Int) :
    coefficients f (position % 8).toNat = coefficientsAt f position := by
  cases f with
  | cubic => exact coefficients_cubic ⟨(position % 8).toNat, by omega⟩
  | linear =>
    have hcast : (((position % 8).toNat : Nat) : Int) = position % 8 := Int.toNat_of_nonneg (by omega)
    simp only [coefficients, coefficientsAt, hcast]

/-- A sample of a pass from the four taps around its source position (R111 to R114). -/
theorem scaled_eq (f : Filter) (inSize outSize : Nat) (sample : Nat → Nat) (i : Nat) :
    scaled f inSize outSize sample i =
      let position := src8 inSize outSize i
      let c := coefficientsAt f position
      let tap := fun k : Int => (sample (tapIndex inSize (position / 8 + k)) : Int)
      (c.1 * tap (-1) + c.2.1 * tap 0 + c.2.2.1 * tap 1 + c.2.2.2 * tap 2 + 32) / 64 := by
  dsimp only
  rw [add_zero, ← coefficients_eq]
  rfl

/-- Settles O60: the frame sample by sample, the estimates, and the raster sample by sample. -/
theorem frameFollowsViewAndCadence : Obligations.FrameFollowsViewAndCadence := by
  refine ⟨fun y v => ?_, fun a b x hx => spatialLuma_eq a b hx, fun a b x low high hx h => spatialLuma_between a b hx h,
    weightOf_cases, fun t s k hk => ⟨rfl, blend_between t s hk⟩, fun t s => ⟨blend_zero t s, blend_full t s⟩,
    fun f phase x h => filterValue_flat f h x, fun y v row => ?_, fun y v row col => ?_⟩
  · intro n p top inside covered weaves plain usable partner around line x j a b spatial spatialPair
    have htop : topField y n.identity = top := by
      simp only [top]
      generalize n.identity = i
      cases y <;> cases i <;> rfl
    have hcarries : carries y v.field.identity line = true ↔ (line % 2 = 0 ↔ top = true) := by
      rw [← htop]
      exact carries_iff ..
    have hcovered : ∀ x, v.inWindow x line = true ↔ covered x line := fun x => by
      rw [View.inWindow_iff]
      simp only [Rect.has_iff]
      rfl
    have ha : lineAbove line / 2 = a := lineAbove_half line
    have hspatial : v.spatial y x line = spatial := by
      rw [View.spatial, ha]
      rfl
    have hpair : ∀ code, v.spatialChroma y code j line = spatialPair code := fun code => by
      rw [View.spatialChroma, ha]
      rfl
    refine ⟨fun hown => ⟨(View.frame_own Slot.luma (j := j) (hcarries.2 hown)).1, fun code =>
      (View.frame_own code (x := x) (hcarries.2 hown)).2⟩, fun hmissing => ?_⟩
    have hnot : ¬ carries y v.field.identity line = true := fun h => hmissing (hcarries.1 h)
    refine ⟨fun k f hk hf => ?_, fun hvideo => ?_⟩
    · have hp : v.partner = some f := (View.partner_eq_some hk).2 hf
      have hluma := (View.frame_woven (x := x) (j := j) Slot.luma hnot hp).1
      rw [hspatial] at hluma
      refine ⟨fun hin => hluma.trans (if_pos ((hcovered x).2 hin)),
        fun hout => hluma.trans (if_neg fun h => hout ((hcovered x).1 h)), fun code => ?_⟩
      have hchroma := (View.frame_woven (x := x) (j := j) code hnot hp).2
      rw [hpair] at hchroma
      exact ⟨fun hin => hchroma.trans (if_pos ((hcovered (2 * j)).2 hin)),
        fun hout => hchroma.trans (if_neg fun h => hout ((hcovered (2 * j)).1 h))⟩
    · have hp : v.partner = none := View.partner_eq_none hvideo
      have hframe := fun code => View.frame_video (x := x) (j := j) code hnot hp
      refine ⟨fun hno => ?_, fun p1 p2 n1 haround => ?_⟩
      · have halone := fun code => View.video_alone (y := y) (x := x) (line := line) (j := j) code
          (View.neighbours_eq_none hno)
        exact ⟨(hframe Slot.luma).1.trans ((halone Slot.luma).1.trans hspatial),
          fun code => (hframe code).2.trans ((halone code).2.trans (hpair code))⟩
      · intro weight
        have hn : v.neighbours = some (p1, p2, n1) := View.neighbours_eq_some.2 haround
        have hmotion : ∀ x, weightOf p (motionValue y v.field p1 p2 n1 x line) = weight x := fun x => by
          rw [motionValue, ha]
          rfl
        have hweight : ∀ x, v.weight y x line = if v.inWindow x line then 16 else weight x := fun x =>
          (View.weight_eq hn).trans (by rw [← hmotion])
        have hfull : ∀ x, covered x line → v.weight y x line = 16 := fun x hin =>
          (hweight x).trans (if_pos ((hcovered x).2 hin))
        have hmoved : ∀ x, ¬ covered x line → v.weight y x line = weight x := fun x hout =>
          (hweight x).trans (if_neg fun h => hout ((hcovered x).1 h))
        have hluma := (hframe Slot.luma).1.trans (View.video_blended (y := y) (x := x) (j := j) Slot.luma hn).1
        rw [hspatial] at hluma
        refine ⟨fun hin => ?_, fun hout => ?_, fun code => ?_⟩
        · rw [hluma, hfull x hin, blend_full]
        · rw [hluma, hmoved x hout]
          rfl
        · have hchroma := (hframe code).2.trans (View.video_blended (y := y) (x := x) (j := j) code hn).2
          rw [hpair] at hchroma
          refine ⟨fun hin => ?_, fun hout => ?_⟩
          · rw [hchroma, hfull (2 * j) hin, blend_full]
          · rw [hchroma, hmoved (2 * j) hout]
            rfl
  · intro p cubic pass line luma chroma out
    have hpass : ∀ (inSize outSize low high : Nat) (lowest highest : Int), lowest = low → highest = high →
        ∀ (sample : Nat → Nat) (i : Nat), pass inSize outSize lowest highest sample i =
          clampInt low high (scaled p.filter inSize outSize sample i) := by
      rintro inSize outSize low high _ _ rfl rfl sample i
      rw [scaled_eq]
      rfl
    have hline : ∀ sample, line sample = vertical p sample row.val := fun sample =>
      hpass p.cropHeight 1080 0 1023 0 1023 rfl rfl (fun t => sample (p.cropY0 + t)) row.val
    have hluma : ∀ col, luma col = activeLuma y v col row.val := fun col =>
      (hpass p.cropWidth 1440 4 1019 4 1019 rfl rfl (fun t => line fun l => v.frameLuma y (p.cropX0 + t) l) col).trans
        (congrArg (fun sample => clampInt 4 1019 (scaled p.filter p.cropWidth 1440 sample col)) (funext fun _ => hline _))
    have hchroma : ∀ code pair, chroma code pair = activeChroma y v code pair row.val := fun code pair =>
      (hpass (p.cropWidth / 2) 720 4 1019 4 1019 rfl rfl
        (fun t => line fun l => v.frameChroma y code (p.cropX0 / 2 + t) l) pair).trans
        (congrArg (fun sample => clampInt 4 1019 (scaled p.filter (p.cropWidth / 2) 720 sample pair))
          (funext fun _ => hline _))
    have hout : out = outRow y v row.val := compose_row y v row
    rw [hout]
    simp only [hluma, hchroma]
    exact ⟨fun col => outRow_y y v row.val col, fun pair => outRow_chroma y v row.val pair⟩
  · intro p out
    have hout : out = if 240 ≤ col.val ∧ col.val < 1680 then BitVec.ofNat 10 (activeLuma y v (col.val - 240) row.val)
        else p.border.y := by
      simp only [out, compose_row, outRow_y]
      rfl
    refine ⟨fun hside => hout.trans (if_neg (by omega)), fun hleft hright hw hh code hflat => ?_⟩
    rw [hout, if_pos ⟨hleft, hright⟩, activeLuma_flat hw hh hflat]

end Sys2Proof.Machine
end
